-- ==== Sys2Proof/Word.lean ====
section
/-! DEFINITION. The widths of the block's values and the two logic levels (spec/10_state.md R30, R41; spec/30_encoding.md R90). -/

namespace Sys2Proof

/-- An 8-bit operation word of the one format OP8 (R90). -/
abbrev OpWord := BitVec 8

/-- A 4-bit field of an op-word (R90). -/
abbrev OpField := BitVec 4

/-- The 5-bit micro-pc (R31). -/
abbrev MicroPc := BitVec 5

/-- The 25-bit address counter (R32, decision D4). -/
abbrev Addr := BitVec 25

/-- A 24-bit issued address, `addr[23:0]` (R32). -/
abbrev BusAddr := BitVec 24

/-- A 16-bit Bus Word (R34). -/
abbrev BusWord := BitVec 16

/-- A HAL line number; R8 leaves the type open and takes natural numbers. -/
abbrev Line := Nat

/-- The number of multiplexed bus lines, `BUS_WIDTH` (R8). -/
abbrev busWidth : Nat := 16

/-- The number of bus lines the High address phase uses, `HIGH_WIDTH` (R8). -/
abbrev highWidth : Nat := 8

/-- A logic level (R41, R99: LOW = 0, HIGH = 1). -/
inductive Level where
  | low
  | high
deriving DecidableEq, Repr, Inhabited

end Sys2Proof
end

