-- ==== Sys2Proof/Config.lean ====
section
/-! DEFINITION. The configuration record (spec/10_state.md R42), the two configurations the spec names, and the values the
spec leaves open (free values and implementation parameters without a body). -/

namespace Sys2Proof

/-- The result of `HAL.init()` (spec/43_host_control.md R190). -/
inductive InitResult where
  | ok
  | fail
deriving DecidableEq, Repr, Inhabited

/-- The letter case of the hex digits A to F of an output line, `HEX_CASE` (R8, decision D16). -/
inductive HexCase where
  | upper
  | lower
deriving DecidableEq, Repr, Inhabited

/-- The immutable configuration record of R42. The levels `ACTIVE[0..4]` have one legal value each (R40: "a configuration
with other polarities is not this hardware"), so they are `Signal.active`, not a field. -/
structure Configuration where
  /-- `BUS_BASE`: bus line i is HAL line `BUS_BASE + i`. -/
  busBase : Line
  /-- `LINE[0]`, LowAddressLatch. -/
  lineLlat : Line
  /-- `LINE[1]`, HighAddressLatch. -/
  lineHlat : Line
  /-- `LINE[2]`, ReadStrobe. -/
  lineRd : Line
  /-- `LINE[3]`, WriteStrobe. -/
  lineWr : Line
  /-- `LINE[4]`, Reset. -/
  lineRst : Line
  /-- `LATCH_HOLD_US`. -/
  latchHoldUs : Nat
  /-- `STROBE_SETTLE_US`. -/
  strobeSettleUs : Nat
  /-- `BANK_SIZE`. -/
  bankSize : Addr
  /-- `LOOP_PC`, 7 (R42); a test program's micro-ROM has its own (R101, log 26). -/
  loopPc : MicroPc
deriving DecidableEq, Repr

/-- The production configuration: bank 0x1000000, waits at their nominal 1, `LOOP_PC` 7 (R8, R42).
DESIGN CHOICE (log 4, unsafe): R8 leaves the line numbers OPEN; these are the example numbers of 95_test_vectors.md. -/
def Config.production : Configuration :=
  { busBase := 2, lineLlat := 18, lineHlat := 19, lineRd := 20, lineWr := 21, lineRst := 22
    latchHoldUs := 1, strobeSettleUs := 1, bankSize := 0x1000000#25, loopPc := 7#5 }

/-- Configuration E of 95_test_vectors.md, the source's test harness (R203): as production, with bank 0x10. -/
def Config.harness : Configuration := { Config.production with bankSize := 0x10#25 }

/-- The result of the n-th `HAL.init()` call where nothing scripts it: a draw under no law (R49, R191). -/
opaque Config.freeInit : Nat → InitResult

/-- The level returned by the n-th `HAL.sample()` call where neither the device model nor a script says: a draw under no
law (R49, R70). -/
opaque Config.freeLevel : Nat → Level

/-- `HEX_CASE`, an OPEN parameter (R8, R198). -/
opaque Config.hexCase : HexCase

/-- `DIAG_TEXT`, an OPEN parameter: the text of the fatal diagnostic (R8, R197). -/
opaque Config.diagText : String

end Sys2Proof
end

