-- ==== Sys2Proof/Syntax.lean ====
section
/-! DEFINITION. The operands (spec/30_encoding.md R92 to R94) and the 31 legal operations, one constructor per row of
spec/opcode_table.json (R91, R96). -/

namespace Sys2Proof

/-- The direction operand of SETDIR (R92), also the direction of a HAL line. -/
inductive Direction where
  | output
  | input
deriving DecidableEq, Repr

/-- The phase operand of PRESENT (R93, spec/10_state.md R48). -/
inductive Phase where
  | low
  | high
deriving DecidableEq, Repr

/-- The five control signals, in the order of their ids 0 to 4 (spec/10_state.md R37). -/
inductive Signal where
  | llat
  | hlat
  | rd
  | wr
  | rst
deriving DecidableEq, Repr

/-- The legal op-words (R96). Each signal, direction and phase is a row of the table of its own. -/
inductive Instr where
  | init
  | ctlidleLlat
  | ctlidleHlat
  | ctlidleRd
  | ctlidleWr
  | ctlidleRst
  | setdirOut
  | setdirIn
  | presentLow
  | presentHigh
  | pulseLlat
  | pulseHlat
  | pulseRd
  | pulseWr
  | pulseRst
  | assertLlat
  | assertHlat
  | assertRd
  | assertWr
  | assertRst
  | deassertLlat
  | deassertHlat
  | deassertRd
  | deassertWr
  | deassertRst
  | settle
  | sample
  | emit
  | advance
  | shutdown
  | halt
deriving DecidableEq, Repr

end Sys2Proof
end

