-- ==== Sys2Proof/WellFormed.lean ====
section
/-! DEFINITION. What may be given to the machine: a valid configuration (spec/10_state.md R43) and a legal pair of op-word
fields (spec/30_encoding.md R92 to R96). An `Instr` has no operands left, so every `Instr` is well formed. -/

namespace Sys2Proof

/-- The 21 HAL lines of a configuration: the 16 bus lines, then `LINE[0..4]` (R42). -/
def Configuration.lines (c : Configuration) : List Line :=
  (List.range busWidth).map (c.busBase + ·) ++ [c.lineLlat, c.lineHlat, c.lineRd, c.lineWr, c.lineRst]

/-- R43 (a): the 21 lines are pairwise distinct. -/
def Configuration.linesDistinct (c : Configuration) : Bool := decide c.lines.Nodup

/-- R43 (b): both waits are at least 1. -/
def Configuration.waitsPositive (c : Configuration) : Bool :=
  decide (1 ≤ c.latchHoldUs) && decide (1 ≤ c.strobeSettleUs)

/-- R43 (c): the bank size is even and lies in [2, 0x1000000]. -/
def Configuration.bankSizeLegal (c : Configuration) : Bool :=
  decide (c.bankSize.toNat % 2 = 0) && decide (2 ≤ c.bankSize.toNat) && decide (c.bankSize.toNat ≤ 0x1000000)

/-- R43: "A configuration is valid only if" all three hold. The legal value of `LOOP_PC` (R42) depends on the micro-ROM and
is `Configuration.loopPcLegal`; a run needs both, `Configuration.validWith`. -/
def Configuration.valid (c : Configuration) : Bool :=
  c.waitsPositive && c.bankSizeLegal && c.linesDistinct

/-- The legal values of `arg` for each `op`, as the operand rules R92 to R95 and the list of reserved words R96 give them. -/
def legalFields (op arg : OpField) : Bool :=
  if op ∈ [0x0, 0x7, 0x8, 0x9, 0xA, 0xB, 0xC] then arg = 0
  else if op ∈ [0x1, 0x4, 0x5, 0x6] then arg ≤ 4
  else if op ∈ [0x2, 0x3] then arg ≤ 1
  else false

end Sys2Proof
end

