-- ==== Sys2Proof/Decode.lean ====
section
/-! DEFINITION. The decoder of spec/30_encoding.md R97, total on any byte and rejecting by name, and the encoder of R91. -/

namespace Sys2Proof

/-- Why the decoder rejects a byte. -/
inductive DecodeReject where
  /-- A reserved op-word (R96); the fetch raises `F_ILLEGAL_OP` with the word as info. -/
  | illegalOp (w : OpWord)
deriving DecidableEq, Repr

/-- `w[7:4]` (R90). -/
def opField (w : OpWord) : OpField := w.extractLsb' 4 4

/-- `w[3:0]` (R90). -/
def argField (w : OpWord) : OpField := w.extractLsb' 0 4

/-- R95: an op without an operand requires `arg = 0`. -/
def noOperand (arg : OpField) (i : Instr) : Option Instr := if arg = 0 then some i else none

/-- R92: 0 is Output, 1 is Input. -/
def directionOperand (arg : OpField) : Option Direction :=
  match arg.toNat with
  | 0 => some .output
  | 1 => some .input
  | _ => none

/-- R93: 0 is Low, 1 is High. -/
def phaseOperand (arg : OpField) : Option Phase :=
  match arg.toNat with
  | 0 => some .low
  | 1 => some .high
  | _ => none

/-- R94: the signal ids of spec/10_state.md R37. -/
def signalOperand (arg : OpField) : Option Signal :=
  match arg.toNat with
  | 0 => some .llat
  | 1 => some .hlat
  | 2 => some .rd
  | 3 => some .wr
  | 4 => some .rst
  | _ => none

/-- CTLIDLE s (op 0x1). -/
def ctlidleOf : Signal → Instr
  | .llat => .ctlidleLlat
  | .hlat => .ctlidleHlat
  | .rd => .ctlidleRd
  | .wr => .ctlidleWr
  | .rst => .ctlidleRst

/-- SETDIR d (op 0x2). -/
def setdirOf : Direction → Instr
  | .output => .setdirOut
  | .input => .setdirIn

/-- PRESENT p (op 0x3). -/
def presentOf : Phase → Instr
  | .low => .presentLow
  | .high => .presentHigh

/-- PULSE s (op 0x4). -/
def pulseOf : Signal → Instr
  | .llat => .pulseLlat
  | .hlat => .pulseHlat
  | .rd => .pulseRd
  | .wr => .pulseWr
  | .rst => .pulseRst

/-- ASSERT s (op 0x5). -/
def assertOf : Signal → Instr
  | .llat => .assertLlat
  | .hlat => .assertHlat
  | .rd => .assertRd
  | .wr => .assertWr
  | .rst => .assertRst

/-- DEASSERT s (op 0x6). -/
def deassertOf : Signal → Instr
  | .llat => .deassertLlat
  | .hlat => .deassertHlat
  | .rd => .deassertRd
  | .wr => .deassertWr
  | .rst => .deassertRst

/-- The table of R91 over the two fields. -/
def decodeFields (op arg : OpField) : Option Instr :=
  match op.toNat with
  | 0x0 => noOperand arg .init
  | 0x1 => (signalOperand arg).map ctlidleOf
  | 0x2 => (directionOperand arg).map setdirOf
  | 0x3 => (phaseOperand arg).map presentOf
  | 0x4 => (signalOperand arg).map pulseOf
  | 0x5 => (signalOperand arg).map assertOf
  | 0x6 => (signalOperand arg).map deassertOf
  | 0x7 => noOperand arg .settle
  | 0x8 => noOperand arg .sample
  | 0x9 => noOperand arg .emit
  | 0xA => noOperand arg .advance
  | 0xB => noOperand arg .shutdown
  | 0xC => noOperand arg .halt
  | _ => none

/-- Decoding is total on any byte (R97); the length is always one byte (R98). -/
def decode (w : OpWord) : Except DecodeReject Instr :=
  match decodeFields (opField w) (argField w) with
  | some i => .ok i
  | none => .error (.illegalOp w)

/-- The decoder on a table row's bits: an op-word is one byte, so the first byte decides. -/
def decodeTableWord (nbits w : Nat) : Option Instr :=
  match decode (BitVec.ofNat 8 (w % 2 ^ nbits)) with
  | .ok i => some i
  | .error _ => none

/-- An op-word from its two fields (R90). -/
def opWord (op arg : OpField) : OpWord := op ++ arg

/-- The one op-word of an instruction (R91, R92 to R95). -/
def encode : Instr → OpWord
  | .init => opWord 0x0 0
  | .ctlidleLlat => opWord 0x1 0
  | .ctlidleHlat => opWord 0x1 1
  | .ctlidleRd => opWord 0x1 2
  | .ctlidleWr => opWord 0x1 3
  | .ctlidleRst => opWord 0x1 4
  | .setdirOut => opWord 0x2 0
  | .setdirIn => opWord 0x2 1
  | .presentLow => opWord 0x3 0
  | .presentHigh => opWord 0x3 1
  | .pulseLlat => opWord 0x4 0
  | .pulseHlat => opWord 0x4 1
  | .pulseRd => opWord 0x4 2
  | .pulseWr => opWord 0x4 3
  | .pulseRst => opWord 0x4 4
  | .assertLlat => opWord 0x5 0
  | .assertHlat => opWord 0x5 1
  | .assertRd => opWord 0x5 2
  | .assertWr => opWord 0x5 3
  | .assertRst => opWord 0x5 4
  | .deassertLlat => opWord 0x6 0
  | .deassertHlat => opWord 0x6 1
  | .deassertRd => opWord 0x6 2
  | .deassertWr => opWord 0x6 3
  | .deassertRst => opWord 0x6 4
  | .settle => opWord 0x7 0
  | .sample => opWord 0x8 0
  | .emit => opWord 0x9 0
  | .advance => opWord 0xA 0
  | .shutdown => opWord 0xB 0
  | .halt => opWord 0xC 0

end Sys2Proof
end

