-- ==== Sys2Proof/Machine/MicroRom.lean ====
section
/-! DEFINITION. The canonical micro-ROM (spec/30_encoding.md R100), the pseudo-instructions (R103) and the assembly text of
an op with its reader (R102). -/

namespace Sys2Proof

/-- The byte string of R100, `ROM_LEN` = 21 entries. -/
def canonicalRom : List OpWord :=
  [0x00, 0x10, 0x11, 0x12, 0x13, 0x14, 0x20, 0x30, 0x40, 0x31, 0x41, 0x21, 0x52, 0x70, 0x80, 0x62, 0x20, 0x90, 0xA0, 0xB0,
    0xC0]

/-- The one legal value of `LOOP_PC` is 7 (spec/10_state.md R42); only another micro-ROM, a test program's, comes with its own
(R101). DEDUCED (log 26). -/
def Configuration.loopPcLegal (c : Configuration) (rom : List OpWord) : Bool :=
  decide (rom = canonicalRom → c.loopPc = 7#5)

/-- Every field of the configuration has a legal value for the micro-ROM it runs (spec/10_state.md R42, R43). -/
def Configuration.validWith (c : Configuration) (rom : List OpWord) : Bool := c.valid && c.loopPcLegal rom

/-- The expansion of the pseudo-instruction BOOT (R103). -/
def bootOps : List Instr :=
  [.init, .ctlidleLlat, .ctlidleHlat, .ctlidleRd, .ctlidleWr, .ctlidleRst, .setdirOut]

/-- The expansion of the pseudo-instruction CYCLE, the steps 1 to 8 of a read cycle (R103). -/
def cycleOps : List Instr :=
  [.presentLow, .pulseLlat, .presentHigh, .pulseHlat, .setdirIn, .assertRd, .settle, .sample, .deassertRd, .setdirOut, .emit]

/-- The assembly of an op: its mnemonic and operand (R102). -/
def assembly : Instr → List String
  | .init => ["INIT"]
  | .ctlidleLlat => ["CTLIDLE", "LLAT"]
  | .ctlidleHlat => ["CTLIDLE", "HLAT"]
  | .ctlidleRd => ["CTLIDLE", "RD"]
  | .ctlidleWr => ["CTLIDLE", "WR"]
  | .ctlidleRst => ["CTLIDLE", "RST"]
  | .setdirOut => ["SETDIR", "OUT"]
  | .setdirIn => ["SETDIR", "IN"]
  | .presentLow => ["PRESENT", "LOW"]
  | .presentHigh => ["PRESENT", "HIGH"]
  | .pulseLlat => ["PULSE", "LLAT"]
  | .pulseHlat => ["PULSE", "HLAT"]
  | .pulseRd => ["PULSE", "RD"]
  | .pulseWr => ["PULSE", "WR"]
  | .pulseRst => ["PULSE", "RST"]
  | .assertLlat => ["ASSERT", "LLAT"]
  | .assertHlat => ["ASSERT", "HLAT"]
  | .assertRd => ["ASSERT", "RD"]
  | .assertWr => ["ASSERT", "WR"]
  | .assertRst => ["ASSERT", "RST"]
  | .deassertLlat => ["DEASSERT", "LLAT"]
  | .deassertHlat => ["DEASSERT", "HLAT"]
  | .deassertRd => ["DEASSERT", "RD"]
  | .deassertWr => ["DEASSERT", "WR"]
  | .deassertRst => ["DEASSERT", "RST"]
  | .settle => ["SETTLE"]
  | .sample => ["SAMPLE"]
  | .emit => ["EMIT"]
  | .advance => ["ADVANCE"]
  | .shutdown => ["SHUTDOWN"]
  | .halt => ["HALT"]

/-- Every op, found by decoding every byte in turn. -/
def allOps : List Instr := (List.range 256).filterMap (decodeTableWord 8)

/-- The words of a line, split at blanks; `acc` is the word being read. -/
def splitWords : List Char → List Char → List (List Char)
  | [], acc => if acc.isEmpty then [] else [acc.reverse]
  | c :: cs, acc =>
    if c = ' ' ∨ c = '\t' then (if acc.isEmpty then splitWords cs [] else acc.reverse :: splitWords cs [])
    else splitWords cs (c :: acc)

/-- A line without its comment and its position label (R102). -/
def opText (line : List Char) : List Char :=
  let code := line.takeWhile (· ≠ ';')
  if ':' ∈ code then (code.dropWhile (· ≠ ':')).drop 1 else code

/-- The ops one assembly line stands for: none for an empty line, one for an op, the expansion for a pseudo-instruction
(R102, R103). DESIGN CHOICE (log 23): blanks separate words, and any other text is rejected (`none`). -/
def assembleLine (line : List Char) : Option (List Instr) :=
  match splitWords (opText line) [] with
  | [] => some []
  | ws =>
    if ws = ["BOOT".toList] then some bootOps
    else if ws = ["CYCLE".toList] then some cycleOps
    else (allOps.find? fun i => (assembly i).map String.toList = ws).map ([·])

/-- The op-words of a text of assembly lines (R102). -/
def assemble (lines : List String) : Option (List OpWord) :=
  (lines.mapM fun l => assembleLine l.toList).map fun ops => ops.flatten.map encode

end Sys2Proof
end

