-- ==== Sys2Proof/Machine/State.lean ====
section
/-! DEFINITION. The state of the block and of the device as plain data (spec/10_state.md), the events of the trace, the
faults and refusals, and the state right after power-on reset (R51). -/

namespace Sys2Proof.Machine

open Sys2Proof

/-- What the block has recorded of a line's level: `Unknown`, or the level it last drove (R30, R36, R38). -/
inductive Recorded where
  | unknown
  | known (v : Level)
deriving DecidableEq, Repr

/-- `busDir` (R35). -/
inductive BusDir where
  | unknown
  | output
  | input
deriving DecidableEq, Repr

/-- `hal`, the lifecycle of the pin-control collaborator (R44). -/
inductive HalState where
  | uninit
  | ready
  | shut
deriving DecidableEq, Repr

/-- `ctl[0..4]`, one record for each control signal (R37, R38). -/
structure CtlLines where
  llat : Recorded
  hlat : Recorded
  rd : Recorded
  wr : Recorded
  rst : Recorded
deriving DecidableEq, Repr

/-- The model faults of spec/60_exceptions.md R221, each with the info it records. A fault is TAKEN (R224): the machine
goes to a next state whose `status` is `faulted`. -/
inductive ModelFault where
  /-- `F_ILLEGAL_OP`, code 0x01, raised by fetch. -/
  | illegalOp (w : OpWord)
  /-- `F_PC_RANGE`, code 0x02, raised by fetch. -/
  | pcRange (pc : MicroPc)
  /-- `F_HAL_NOT_READY`, code 0x03. -/
  | halNotReady (pc : MicroPc)
  /-- `F_DOUBLE_INIT`, code 0x04. -/
  | doubleInit (pc : MicroPc)
  /-- `F_BUS_NOT_OUTPUT`, code 0x05. -/
  | busNotOutput (pc : MicroPc)
  /-- `F_BUS_NOT_INPUT`, code 0x06. -/
  | busNotInput (pc : MicroPc)
  /-- `F_ADDR_INVALID`, code 0x07. -/
  | addrInvalid (addr : Addr)
  /-- `F_SIGNAL_UNCONFIGURED`, code 0x08. -/
  | signalUnconfigured (t : Signal)
  /-- `F_SIGNAL_OVERLAP`, code 0x09. -/
  | signalOverlap (t : Signal)
  /-- `F_BUS_CONTENTION`, code 0x0A. -/
  | busContention (pc : MicroPc)
  /-- `F_WORD_UNWRITTEN`, code 0x0B. -/
  | wordUnwritten (pc : MicroPc)
deriving DecidableEq, Repr

/-- `status` (R45). -/
inductive Status where
  | running
  | halted (code : BitVec 8)
  | faulted (f : ModelFault)
deriving DecidableEq, Repr

/-- The events of the trace (spec/00_scope.md R14, spec/43_host_control.md R190). -/
inductive Event where
  | init (r : InitResult)
  | cfg (l : Line) (d : Direction)
  | drive (l : Line) (v : Level)
  | sample (l : Line) (v : Level)
  | wait (n : Nat)
  | shutdown
  | out (a : BusAddr) (w : BusWord)
  | diag
deriving DecidableEq, Repr

/-- The device's address latch `devA` (R50); `none` is the spec's `Unknown` of that half. -/
structure DevLatch where
  /-- `devA[15:0]`, from the LowAddressLatch pulse. -/
  low : Option (BitVec 16)
  /-- `devA[23:16]`, from the HighAddressLatch pulse. -/
  high : Option (BitVec 8)
deriving DecidableEq, Repr

/-- The device's content M of spec/20_memory.md R72 as (address, word) pairs, addresses strictly rising. Words are not
split into bytes, because R66 gives them no byte order (log 10). An unlisted address answers a free draw (log 9). -/
abbrev Memory := List (Nat × BusWord)

/-- The MODEL's own state for the draws of R49 and R70 (log 8): answers the HAL is set to give, in call order, and the
number of calls so far, to which the free values of Config are applied once the listed answers are used up. -/
structure HalInput where
  inits : List InitResult
  levels : List Level
  initCount : Nat
  levelCount : Nat
deriving DecidableEq, Repr

/-- The whole machine. The first ten fields are the registers of R30. -/
structure State where
  /-- The micro-pc (R31). -/
  pc : MicroPc
  /-- The address counter (R32). -/
  addr : Addr
  /-- The Bus Word (R34). -/
  word : BusWord
  /-- Whether `word` was sampled in the current read cycle (R34). -/
  wvalid : Bool
  /-- The direction of the whole bus (R35). -/
  busDir : BusDir
  /-- The level last driven on each bus line since the last direction change (R36). -/
  busOut : Vector Recorded busWidth
  /-- The level last driven on each control line (R38). -/
  ctl : CtlLines
  /-- The HAL's lifecycle (R44). -/
  hal : HalState
  /-- Running, halted or faulted (R45). -/
  status : Status
  /-- The emitted pairs, in emission order (R46). -/
  out : List (BusAddr × BusWord)
  /-- The device's address latch (R50). -/
  devA : DevLatch
  /-- The trace of the run so far, oldest event first (R14). -/
  trace : List Event
  /-- The configuration, fixed for the run (R9, R42). No op writes it. -/
  cfg : Configuration
  /-- The micro-ROM (R100); another one only for test programs (R101). No op writes it (R76). -/
  microRom : List OpWord
  /-- The content of the device, the explicit premise of R72; empty for a device of which nothing is assumed (R70). -/
  deviceRom : Memory
  /-- The model's own: the source of the HAL's answers. -/
  halIn : HalInput
deriving DecidableEq, Repr

/-- Why a step stops with a fault. There is no constructor: every fault of the spec has an entry the spec describes
(spec/60_exceptions.md R224) and is taken as a next state with `status` faulted, so no instruction stops the model. -/
inductive Fault
deriving DecidableEq, Repr

/-- Why a step is refused. -/
inductive Refusal where
  /-- Raised by an arm of `exec` whose instruction has no meaning yet; safe. No arm does. -/
  | notModelled (mnemonic : String)
  /-- Raised by `step` on a state whose configuration is not valid for its micro-ROM (R42, R43): "A model refuses an invalid configuration at
  construction; it defines no run for one" (R43); safe. -/
  | invalidConfiguration
deriving DecidableEq, Repr

/-- The outcome of an op or a step. -/
abbrev Result := Host.Outcome State Fault Refusal

/-- Every control line Unknown (R51). -/
def CtlLines.allUnknown : CtlLines :=
  { llat := .unknown, hlat := .unknown, rd := .unknown, wr := .unknown, rst := .unknown }

/-- The power-on reset state of R51 for a freshly constructed configuration (spec/70_reset_and_hazards.md R250).
DESIGN CHOICE (log 12, unsafe): `word`, which R51 gives "no value", is 0. -/
def State.resetWith (c : Configuration) : State :=
  { pc := 0#5
    addr := 0#25
    word := 0#16
    wvalid := false
    busDir := .unknown
    busOut := Vector.replicate busWidth .unknown
    ctl := CtlLines.allUnknown
    hal := .uninit
    status := .running
    out := []
    devA := { low := none, high := none }
    trace := []
    cfg := c
    microRom := canonicalRom
    deviceRom := []
    halIn := { inits := [], levels := [], initCount := 0, levelCount := 0 } }

/-- The machine right after power-on reset, in the production configuration. -/
def State.reset : State := State.resetWith Config.production

end Sys2Proof.Machine
end

