-- ==== Sys2Proof/Machine/Operands.lean ====
section
/-! DEFINITION. What the operands select: HAL lines (spec/00_scope.md R13), levels of a signal (spec/10_state.md R40),
levels of bits (R41), the address slices of the two phases (spec/20_memory.md R64) and the word of a list of levels (R65). -/

namespace Sys2Proof

/-- The other level. -/
def Level.complement : Level → Level
  | .low => .high
  | .high => .low

/-- `lvl(b)` (R41). -/
def lvl : Bool → Level
  | true => .high
  | false => .low

/-- `bit(v)` (R41). -/
def bitOf : Level → Bool
  | .high => true
  | .low => false

/-- The signal id of R37. -/
def Signal.id : Signal → Nat
  | .llat => 0
  | .hlat => 1
  | .rd => 2
  | .wr => 3
  | .rst => 4

/-- The five signals in the order of their ids, the loop "for t in 0 .. 4". -/
def Signal.all : List Signal := [.llat, .hlat, .rd, .wr, .rst]

/-- `ACTIVE(s)`: ReadStrobe is active-low, the others active-high (R40). -/
def Signal.active : Signal → Level
  | .llat => .high
  | .hlat => .high
  | .rd => .low
  | .wr => .high
  | .rst => .high

/-- `IDLE(s)`, the complement of `ACTIVE(s)` (R40). -/
def Signal.idle (g : Signal) : Level := g.active.complement

/-- `LINE(s)` (R13, R42). -/
def Configuration.line (c : Configuration) : Signal → Line
  | .llat => c.lineLlat
  | .hlat => c.lineHlat
  | .rd => c.lineRd
  | .wr => c.lineWr
  | .rst => c.lineRst

/-- `BUSLINE(i)` (R13). -/
def Configuration.busLine (c : Configuration) (i : Nat) : Line := c.busBase + i

/-- The level the Low phase puts on bus line i: bit i of the address (R64). -/
def lowPhaseLevel (a : Addr) (i : Nat) : Level := lvl (a.getLsbD i)

/-- The level the High phase puts on bus line i: bit 16 + i of the address (R64). -/
def highPhaseLevel (a : Addr) (i : Nat) : Level := lvl (a.getLsbD (16 + i))

/-- `addr[23:0]`, the only part of the counter that is issued (R32). -/
def busAddr (a : Addr) : BusAddr := a.setWidth 24

/-- The number whose bit i is the bit of the i-th level, least significant first (spec/42_read_cycle.md R161). -/
def packLevels : List Level → Nat
  | [] => 0
  | v :: vs => (bitOf v).toNat + 2 * packLevels vs

/-- The Bus Word of 16 sampled levels, line i to bit i (R65, R161). -/
def wordOfLevels (vs : List Level) : BusWord := BitVec.ofNat 16 (packLevels vs)

/-- The recorded level of a control line. -/
def Machine.CtlLines.get (c : Machine.CtlLines) : Signal → Machine.Recorded
  | .llat => c.llat
  | .hlat => c.hlat
  | .rd => c.rd
  | .wr => c.wr
  | .rst => c.rst

/-- The records with that of one control line changed. -/
def Machine.CtlLines.set (c : Machine.CtlLines) (g : Signal) (r : Machine.Recorded) : Machine.CtlLines :=
  match g with
  | .llat => { c with llat := r }
  | .hlat => { c with hlat := r }
  | .rd => { c with rd := r }
  | .wr => { c with wr := r }
  | .rst => { c with rst := r }

/-- The direction of the bus after SETDIR (spec/40_bus_direction.md R120, R121). -/
def Machine.BusDir.ofDirection : Direction → Machine.BusDir
  | .output => .output
  | .input => .input

/-- Every bus line Unknown (R36). -/
def Machine.busAllUnknown : Vector Machine.Recorded busWidth := Vector.replicate busWidth .unknown

/-- The bus after PRESENT LOW (spec/41_address_latch.md R130). -/
def Machine.busLow (a : Addr) : Vector Machine.Recorded busWidth :=
  Vector.ofFn fun i => .known (lowPhaseLevel a i.val)

/-- The bus after PRESENT HIGH: lines 0 to 7 driven, lines 8 to 15 Unknown (R131, R134). -/
def Machine.busHigh (a : Addr) : Vector Machine.Recorded busWidth :=
  Vector.ofFn fun i => if i.val < highWidth then .known (highPhaseLevel a i.val) else .unknown

/-! ### Value encodings (spec/30_encoding.md R99); the code of a signal is its id -/

/-- LOW = 0, HIGH = 1. -/
def Level.code : Level → Nat
  | .low => 0
  | .high => 1

/-- Output = 0, Input = 1. -/
def Direction.code : Direction → Nat
  | .output => 0
  | .input => 1

/-- Low = 0, High = 1. -/
def Phase.code : Phase → Nat
  | .low => 0
  | .high => 1

/-- Uninit = 0, Ready = 1, Shut = 2. -/
def Machine.HalState.code : Machine.HalState → Nat
  | .uninit => 0
  | .ready => 1
  | .shut => 2

/-- The code of a model fault (spec/60_exceptions.md R221). -/
def Machine.ModelFault.code : Machine.ModelFault → BitVec 8
  | .illegalOp _ => 0x01
  | .pcRange _ => 0x02
  | .halNotReady _ => 0x03
  | .doubleInit _ => 0x04
  | .busNotOutput _ => 0x05
  | .busNotInput _ => 0x06
  | .addrInvalid _ => 0x07
  | .signalUnconfigured _ => 0x08
  | .signalOverlap _ => 0x09
  | .busContention _ => 0x0A
  | .wordUnwritten _ => 0x0B

/-- The info a model fault records, as a number (R221). -/
def Machine.ModelFault.info : Machine.ModelFault → Nat
  | .illegalOp w => w.toNat
  | .pcRange p => p.toNat
  | .halNotReady p => p.toNat
  | .doubleInit p => p.toNat
  | .busNotOutput p => p.toNat
  | .busNotInput p => p.toNat
  | .addrInvalid a => a.toNat
  | .signalUnconfigured t => t.id
  | .signalOverlap t => t.id
  | .busContention p => p.toNat
  | .wordUnwritten p => p.toNat

end Sys2Proof
end

