-- ==== Sys2Proof/Machine/Flags.lean ====
section
/-! DEFINITION. The block has no flags (spec/10_state.md R47). What stands here is what an op looks at: the "require" lines
of the ops' pseudocode, each with the fault of spec/60_exceptions.md R221 it raises, and ADVANCE's one comparison. -/

namespace Sys2Proof.Machine

open Sys2Proof

/-- One "require … else raise …" line. -/
structure Check where
  holds : Bool
  fault : ModelFault

/-- "require hal = Ready else raise F_HAL_NOT_READY(pc)". -/
def halReady (s : State) : Check := ⟨s.hal == .ready, .halNotReady s.pc⟩

/-- "require hal = Uninit else raise F_DOUBLE_INIT(pc)" (spec/43_host_control.md R191). -/
def halUninit (s : State) : Check := ⟨s.hal == .uninit, .doubleInit s.pc⟩

/-- "require busDir = Output else raise F_BUS_NOT_OUTPUT(pc)" (spec/41_address_latch.md R133). -/
def busIsOutput (s : State) : Check := ⟨s.busDir == .output, .busNotOutput s.pc⟩

/-- "require busDir = Input else raise F_BUS_NOT_INPUT(pc)" (spec/42_read_cycle.md R160). -/
def busIsInput (s : State) : Check := ⟨s.busDir == .input, .busNotInput s.pc⟩

/-- "require addr[0] = 0 and addr[24] = 0 else raise F_ADDR_INVALID(addr)" (spec/41_address_latch.md R132). -/
def addrValid (s : State) : Check :=
  ⟨!s.addr.getLsbD 0 && !s.addr.getLsbD 24, .addrInvalid s.addr⟩

/-- "require ctl[t] /= Unknown else raise F_SIGNAL_UNCONFIGURED(t)". -/
def signalConfigured (s : State) (t : Signal) : Check := ⟨s.ctl.get t != .unknown, .signalUnconfigured t⟩

/-- "require ctl[t] = IDLE(t) else raise F_SIGNAL_OVERLAP(t)". -/
def signalIdle (s : State) (t : Signal) : Check := ⟨s.ctl.get t == .known t.idle, .signalOverlap t⟩

/-- "if s = 2: require busDir = Input else raise F_BUS_CONTENTION(pc)" (spec/42_read_cycle.md R152). -/
def strobeNeedsInput (s : State) (g : Signal) : Check := ⟨g != .rd || s.busDir == .input, .busContention s.pc⟩

/-- "require ctl[2] = IDLE(2) else raise F_BUS_CONTENTION(pc)" (spec/40_bus_direction.md R120). -/
def strobeIdle (s : State) : Check := ⟨s.ctl.rd == .known Signal.rd.idle, .busContention s.pc⟩

/-- "require wvalid = 1 else raise F_WORD_UNWRITTEN(pc)" (spec/42_read_cycle.md R164). -/
def wordWritten (s : State) : Check := ⟨s.wvalid, .wordUnwritten s.pc⟩

/-- The checks of PULSE and ASSERT, in the order of their pseudocode (spec/41_address_latch.md R136,
spec/42_read_cycle.md R150). -/
def activationChecks (s : State) (g : Signal) : List Check :=
  halReady s :: Signal.all.map (signalConfigured s) ++ Signal.all.map (signalIdle s) ++ [strobeNeedsInput s g]

/-- The termination test of ADVANCE, made after the add: `addr >= BANK_SIZE` (spec/42_read_cycle.md R171). -/
def endOfRange (c : Configuration) (a : Addr) : Bool := decide (c.bankSize.toNat ≤ a.toNat)

end Sys2Proof.Machine
end

