-- ==== Sys2Proof/Machine/Ops.lean ====
section
/-! DEFINITION. The named operations the meanings share: taking a model fault (spec/60_exceptions.md R222, R224), the
updates of the registers, the HAL calls as trace events (spec/43_host_control.md R190), the draws (spec/20_memory.md R70)
and the device's side (spec/20_memory.md R72). -/

namespace Sys2Proof.Machine

open Sys2Proof

/-! ### Faults -/

/-- Fault entry (R224): `status <- Faulted(f, info)`; `pc` stays, nothing is saved and nothing is rolled back. There is no
return from a fault (R225). -/
def State.takeFault (s : State) (f : ModelFault) : State := { s with status := .faulted f }

/-- An op: its checks in order, the first that fails reported, every check before every effect (R222). -/
def guarded (checks : List Check) (effect : State → State) (s : State) : Result :=
  match checks.find? (fun c => !c.holds) with
  | some c => .next (s.takeFault c.fault)
  | none => .next (effect s)

/-! ### Registers -/

/-- `pc <- pc + 1` (R31), modulo 2^5 (log 14). -/
def State.nextPc (s : State) : State := { s with pc := s.pc + 1#5 }

/-- `pc <- target` (R11). -/
def State.jump (s : State) (p : MicroPc) : State := { s with pc := p }

/-- `addr <- (addr + 2) mod 2^25; wvalid <- 0` (spec/42_read_cycle.md R170). -/
def State.bumpAddr (s : State) : State := { s with addr := s.addr + 2#25, wvalid := false }

/-- `word <- w; wvalid <- 1` (spec/42_read_cycle.md R160). -/
def State.setWord (s : State) (w : BusWord) : State := { s with word := w, wvalid := true }

/-- `busDir <- d`, and every `busOut[i] <- Unknown` (spec/40_bus_direction.md R120, R121). -/
def State.setDirection (s : State) (d : Direction) : State :=
  { s with busDir := BusDir.ofDirection d, busOut := busAllUnknown }

/-- `busOut <- b`. -/
def State.setBusOut (s : State) (b : Vector Recorded busWidth) : State := { s with busOut := b }

/-- `ctl[g] <- v`. -/
def State.setCtl (s : State) (g : Signal) (v : Level) : State := { s with ctl := s.ctl.set g (.known v) }

/-- `hal <- h`. -/
def State.setHal (s : State) (h : HalState) : State := { s with hal := h }

/-- `status <- Halted(code)` (R45). -/
def State.haltWith (s : State) (code : BitVec 8) : State := { s with status := .halted code }

/-! ### The trace -/

/-- Events appended to the trace, in order (spec/00_scope.md R14, R15). -/
def State.record (s : State) (es : List Event) : State := { s with trace := s.trace ++ es }

/-- `HAL.cfg(l, d)`. -/
def State.halCfg (s : State) (l : Line) (d : Direction) : State := s.record [.cfg l d]

/-- `HAL.drive(l, v)`. -/
def State.halDrive (s : State) (l : Line) (v : Level) : State := s.record [.drive l v]

/-- `HAL.wait(n)`. -/
def State.halWait (s : State) (n : Nat) : State := s.record [.wait n]

/-- `HAL.shutdown()`. -/
def State.halShutdown (s : State) : State := s.record [.shutdown]

/-- "for i in 0 .. 15: HAL.cfg(BUSLINE(i), d)", ascending (decision D6). -/
def State.halCfgBus (s : State) (d : Direction) : State :=
  s.record ((List.range busWidth).map fun i => .cfg (s.cfg.busLine i) d)

/-- "for i in 0 .. n-1: HAL.drive(BUSLINE(i), level i)", ascending (decision D6). -/
def State.halDriveBus (s : State) (n : Nat) (level : Nat → Level) : State :=
  s.record ((List.range n).map fun i => .drive (s.cfg.busLine i) (level i))

/-- `emit(a, w)`: the pair is appended to `out` and to the trace (spec/42_read_cycle.md R164). -/
def State.emitPair (s : State) (a : BusAddr) (w : BusWord) : State :=
  { s with out := s.out ++ [(a, w)], trace := s.trace ++ [.out a w] }

/-! ### The device's content -/

/-- The canonical form: addresses strictly rising. -/
def Memory.rising : Memory → Bool
  | [] => true
  | [_] => true
  | (a, _) :: (b, v) :: m => decide (a < b) && Memory.rising ((b, v) :: m)

/-- A content in canonical form over even 24-bit addresses (R62, R72). An unlisted address reads as a free draw, so no
entry can equal it. -/
def Memory.wf (m : Memory) : Bool :=
  Memory.rising m && m.all fun e => decide (e.1 % 2 = 0) && decide (e.1 < 2 ^ 24)

/-- The content at an address; `none` where nothing is assumed of it. -/
def Memory.read (m : Memory) (a : Nat) : Option BusWord :=
  match m with
  | [] => none
  | (b, v) :: m => if a = b then some v else Memory.read m a

/-- The content with the word at one address set, to state a premise of R72. No op writes the device (R61). -/
def Memory.write (m : Memory) (a : Nat) (w : BusWord) : Memory :=
  match m with
  | [] => [(a, w)]
  | (b, v) :: m =>
    if a < b then (a, w) :: (b, v) :: m
    else if a = b then (a, w) :: m
    else (b, v) :: Memory.write m a w

/-! ### The device's side of the protocol (R72) -/

/-- The levels of a list of records, `none` if one of them is Unknown. -/
def knownLevels : List Recorded → Option (List Level)
  | [] => some []
  | .unknown :: _ => none
  | .known v :: rs => (knownLevels rs).map (v :: ·)

/-- "devA[15:0] <- {busOut[15], ..., busOut[0]} as bits (Unknown if any is Unknown)". -/
def captureLow (b : Vector Recorded busWidth) : Option (BitVec 16) :=
  (knownLevels b.toList).map fun vs => BitVec.ofNat 16 (packLevels vs)

/-- "devA[23:16] <- {busOut[7], ..., busOut[0]} as bits (Unknown if any is Unknown)". -/
def captureHigh (b : Vector Recorded busWidth) : Option (BitVec 8) :=
  (knownLevels (b.toList.take highWidth)).map fun vs => BitVec.ofNat 8 (packLevels vs)

/-- What a pulse of a signal does to the device's latch; a pulse of RD, WR or RST does nothing to it (R72, N10). -/
def State.latchDevice (s : State) (g : Signal) : State :=
  match g with
  | .llat => { s with devA := { s.devA with low := captureLow s.busOut } }
  | .hlat => { s with devA := { s.devA with high := captureHigh s.busOut } }
  | .rd => s
  | .wr => s
  | .rst => s

/-- The latched address, where both halves are known. -/
def DevLatch.address (d : DevLatch) : Option BusAddr :=
  match d.high, d.low with
  | some h, some l => some (h ++ l)
  | _, _ => none

/-- The word the device drives: "while ctl[RD] = LOW (active) and busDir = Input", at a latched even address whose content
is listed. In every other case the sampled levels are free draws (R72). -/
def State.deviceWord (s : State) : Option BusWord :=
  if s.ctl.rd = .known .low ∧ s.busDir = .input then
    match s.devA.address with
    | some a => if a.getLsbD 0 = false then s.deviceRom.read a.toNat else none
    | none => none
  else none

/-! ### Draws (R49, R70; log 8) -/

/-- The result of the next `HAL.init()`: the next listed answer, else a free value. -/
def HalInput.initDraw (h : HalInput) : InitResult :=
  match h.inits with
  | r :: _ => r
  | [] => Config.freeInit h.initCount

/-- The answers after one `HAL.init()`. -/
def HalInput.afterInit (h : HalInput) : HalInput :=
  { h with inits := h.inits.drop 1, initCount := h.initCount + 1 }

/-- The draw of the i-th `HAL.sample()` from now: the listed level, else a free value. -/
def HalInput.levelDraw (h : HalInput) (i : Nat) : Level :=
  (h.levels[i]?).getD (Config.freeLevel (h.levelCount + i))

/-- The answers after n calls of `HAL.sample()`. -/
def HalInput.afterLevels (h : HalInput) (n : Nat) : HalInput :=
  { h with levels := h.levels.drop n, levelCount := h.levelCount + n }

/-- The level bus line i shows to the i-th `HAL.sample()` from now: the device's (R72), else a draw (R70). -/
def State.lineLevel (s : State) (i : Nat) : Level :=
  match s.deviceWord with
  | some w => lvl (w.getLsbD i)
  | none => s.halIn.levelDraw i

/-- "for i in 0 .. 15: v_i <- HAL.sample(BUSLINE(i))", line 0 first (spec/42_read_cycle.md R160). -/
def State.sampledLevels (s : State) : List Level := (List.range busWidth).map s.lineLevel

/-- The 16 `Sample` events of those calls, and the answers they use up. -/
def State.halSampleBus (s : State) : State :=
  { s with
    trace := s.trace ++ (List.range busWidth).map fun i => .sample (s.cfg.busLine i) (s.lineLevel i)
    halIn := s.halIn.afterLevels busWidth }

/-- `r <- HAL.init()`: its event, and the answer it uses up. -/
def State.halInit (s : State) : State :=
  { s with trace := s.trace ++ [.init s.halIn.initDraw], halIn := s.halIn.afterInit }

end Sys2Proof.Machine
end

