-- ==== Sys2Proof/Machine/Fetch.lean ====
section
/-! DEFINITION. Fetching the op-word at the micro-pc, its two checks (spec/60_exceptions.md R222) and placing an op-word
there for a test program (spec/30_encoding.md R101). -/

namespace Sys2Proof.Machine

open Sys2Proof

/-- The op at `pc`: `F_PC_RANGE` first, then `F_ILLEGAL_OP` (R222, spec/10_state.md R31). -/
def fetch (s : State) : Except ModelFault Instr :=
  match s.microRom[s.pc.toNat]? with
  | none => .error (.pcRange s.pc)
  | some w =>
    match decode w with
    | .ok i => .ok i
    | .error (.illegalOp w') => .error (.illegalOp w')

/-- The micro-ROM with one entry replaced. Where the index lies past the end the ROM is first made longer with the
reserved op-word 0xFF, which no run executes without a fault (log 15). -/
def placeOpWord (rom : List OpWord) (p : MicroPc) (w : OpWord) : List OpWord :=
  (rom ++ List.replicate (p.toNat + 1 - rom.length) 0xFF#8).set p.toNat w

/-- An op-word from the low bits of a number. -/
def opWordOfBits (nbits w : Nat) : OpWord := BitVec.ofNat 8 (w % 2 ^ nbits)

/-- Whether the configuration is one that may run this micro-ROM (spec/10_state.md R42, R43). -/
def State.configured (s : State) : Bool := s.cfg.validWith s.microRom

/-- Whether the block executes ops (R45): "Once it is not `Running` no further op executes". -/
def State.isRunning (s : State) : Bool := s.status == .running

end Sys2Proof.Machine
end

