-- ==== Sys2Proof/Machine/AddressLatch.lean ====
section
/-! DEFINITION. The Address Latch Sequencer: PRESENT and PULSE (spec/41_address_latch.md). -/

namespace Sys2Proof.Machine

open Sys2Proof

/-- The checks of PRESENT, in order (R130, R131). -/
def presentChecks (s : State) : List Check := [halReady s, busIsOutput s, addrValid s]

/-- PRESENT LOW (R130): 16 drives, line 0 first. -/
def execPresentLow (s : State) : Result :=
  guarded (presentChecks s)
    (fun s => ((s.halDriveBus busWidth (lowPhaseLevel s.addr)).setBusOut (busLow s.addr)).nextPc) s

/-- PRESENT HIGH (R131): 8 drives; lines 8 to 15 get no call and become Unknown (R134). -/
def execPresentHigh (s : State) : Result :=
  guarded (presentChecks s)
    (fun s => ((s.halDriveBus highWidth (highPhaseLevel s.addr)).setBusOut (busHigh s.addr)).nextPc) s

/-- What PULSE g does (R136): active, hold, idle. The device captures the bus, which the pulse does not change (R140, R72). -/
def pulseEffect (g : Signal) (s : State) : State :=
  let active := (s.halDrive (s.cfg.line g) g.active).setCtl g g.active
  let held := (active.latchDevice g).halWait s.cfg.latchHoldUs
  ((held.halDrive (s.cfg.line g) g.idle).setCtl g g.idle).nextPc

/-- PULSE g (R136). -/
def pulse (g : Signal) (s : State) : Result := guarded (activationChecks s g) (pulseEffect g) s

/-- PULSE LLAT (R136, s = 0). -/
def execPulseLlat (s : State) : Result := pulse .llat s

/-- PULSE HLAT (R136, s = 1). -/
def execPulseHlat (s : State) : Result := pulse .hlat s

/-- PULSE RD (R136, s = 2). -/
def execPulseRd (s : State) : Result := pulse .rd s

/-- PULSE WR (R136, s = 3). -/
def execPulseWr (s : State) : Result := pulse .wr s

/-- PULSE RST (R136, s = 4). -/
def execPulseRst (s : State) : Result := pulse .rst s

end Sys2Proof.Machine
end

