-- ==== Sys2Proof/Machine/BusDirection.lean ====
section
/-! DEFINITION. The Bus Direction Controller: SETDIR (spec/40_bus_direction.md). -/

namespace Sys2Proof.Machine

open Sys2Proof

/-- What SETDIR does in either direction (R120, R121). -/
def setdirEffect (d : Direction) (s : State) : State := ((s.halCfgBus d).setDirection d).nextPc

/-- SETDIR OUT (R120). -/
def execSetdirOut (s : State) : Result := guarded [halReady s, strobeIdle s] (setdirEffect .output) s

/-- SETDIR IN (R121). -/
def execSetdirIn (s : State) : Result := guarded [halReady s] (setdirEffect .input) s

end Sys2Proof.Machine
end

