-- ==== Sys2Proof/Machine/ReadCycle.lean ====
section
/-! DEFINITION. The Read Cycle Driver: ASSERT, DEASSERT, SETTLE, SAMPLE, EMIT, ADVANCE (spec/42_read_cycle.md). -/

namespace Sys2Proof.Machine

open Sys2Proof

/-- ASSERT g (R150): the signal is driven to its active level and left there. -/
def assertSignal (g : Signal) (s : State) : Result :=
  guarded (activationChecks s g)
    (fun s => ((s.halDrive (s.cfg.line g) g.active).setCtl g g.active).nextPc) s

/-- ASSERT LLAT (R150, s = 0). -/
def execAssertLlat (s : State) : Result := assertSignal .llat s

/-- ASSERT HLAT (R150, s = 1). -/
def execAssertHlat (s : State) : Result := assertSignal .hlat s

/-- ASSERT RD (R150, s = 2). -/
def execAssertRd (s : State) : Result := assertSignal .rd s

/-- ASSERT WR (R150, s = 3). -/
def execAssertWr (s : State) : Result := assertSignal .wr s

/-- ASSERT RST (R150, s = 4). -/
def execAssertRst (s : State) : Result := assertSignal .rst s

/-- DEASSERT g (R155): only its own signal need be configured, and the bus may be in either direction. -/
def deassertSignal (g : Signal) (s : State) : Result :=
  guarded [halReady s, signalConfigured s g]
    (fun s => ((s.halDrive (s.cfg.line g) g.idle).setCtl g g.idle).nextPc) s

/-- DEASSERT LLAT (R155, s = 0). -/
def execDeassertLlat (s : State) : Result := deassertSignal .llat s

/-- DEASSERT HLAT (R155, s = 1). -/
def execDeassertHlat (s : State) : Result := deassertSignal .hlat s

/-- DEASSERT RD (R155, s = 2). -/
def execDeassertRd (s : State) : Result := deassertSignal .rd s

/-- DEASSERT WR (R155, s = 3). -/
def execDeassertWr (s : State) : Result := deassertSignal .wr s

/-- DEASSERT RST (R155, s = 4). -/
def execDeassertRst (s : State) : Result := deassertSignal .rst s

/-- SETTLE (R158). -/
def execSettle (s : State) : Result :=
  guarded [halReady s] (fun s => (s.halWait s.cfg.strobeSettleUs).nextPc) s

/-- SAMPLE (R160): every level is accepted, and the strobe need not be active. -/
def execSample (s : State) : Result :=
  guarded [halReady s, busIsInput s] (fun s => (s.halSampleBus.setWord (wordOfLevels s.sampledLevels)).nextPc) s

/-- EMIT (R164): no HAL call, so no HAL check. -/
def execEmit (s : State) : Result :=
  guarded [wordWritten s, addrValid s] (fun s => (s.emitPair (busAddr s.addr) s.word).nextPc) s

/-- What ADVANCE does (R170): the add, and the test on the new address. -/
def advanceEffect (s : State) : State :=
  if endOfRange s.cfg (s.addr + 2#25) then s.bumpAddr.nextPc else s.bumpAddr.jump s.cfg.loopPc

/-- ADVANCE (R170): no check, no event. -/
def execAdvance (s : State) : Result := guarded [] advanceEffect s

end Sys2Proof.Machine
end

