-- ==== Sys2Proof/Machine/RunControl.lean ====
section
/-! DEFINITION. Bring-up and the end of the range: INIT, CTLIDLE, SHUTDOWN, HALT (spec/43_host_control.md). -/

namespace Sys2Proof.Machine

open Sys2Proof

/-- What INIT does with the HAL's answer (R191): on failure the diagnostic and exit code 1, `pc` and `hal` unchanged. -/
def initEffect (s : State) : State :=
  match s.halIn.initDraw with
  | .fail => (s.halInit.record [.diag]).haltWith 1#8
  | .ok => (s.halInit.setHal .ready).nextPc

/-- INIT (R191). -/
def execInit (s : State) : Result := guarded [halUninit s] initEffect s

/-- CTLIDLE g (R192): direction first, then the idle level (decision D12). -/
def ctlidle (g : Signal) (s : State) : Result :=
  guarded [halReady s]
    (fun s => (((s.halCfg (s.cfg.line g) .output).halDrive (s.cfg.line g) g.idle).setCtl g g.idle).nextPc) s

/-- CTLIDLE LLAT (R192, s = 0). -/
def execCtlidleLlat (s : State) : Result := ctlidle .llat s

/-- CTLIDLE HLAT (R192, s = 1). -/
def execCtlidleHlat (s : State) : Result := ctlidle .hlat s

/-- CTLIDLE RD (R192, s = 2). -/
def execCtlidleRd (s : State) : Result := ctlidle .rd s

/-- CTLIDLE WR (R192, s = 3). -/
def execCtlidleWr (s : State) : Result := ctlidle .wr s

/-- CTLIDLE RST (R192, s = 4). -/
def execCtlidleRst (s : State) : Result := ctlidle .rst s

/-- SHUTDOWN (R195): `busDir` and `ctl` are unchanged. -/
def execShutdown (s : State) : Result := guarded [halReady s] (fun s => (s.halShutdown.setHal .shut).nextPc) s

/-- HALT (R196): exit code 0 (decision D14), `pc` unchanged, no check and no event. -/
def execHalt (s : State) : Result := guarded [] (fun s => s.haltWith 0#8) s

end Sys2Proof.Machine
end

