-- ==== Sys2Proof/Machine/Dispatch.lean ====
section
/-! DEFINITION. The meaning of each op, one arm per row of spec/opcode_table.json. -/

namespace Sys2Proof.Machine
open Sys2Proof

def exec (i : Instr) (s : State) : Host.Outcome State Fault Refusal :=
  match i with
  | .init => Sys2Proof.Machine.execInit s
  | .ctlidleLlat => Sys2Proof.Machine.execCtlidleLlat s
  | .ctlidleHlat => Sys2Proof.Machine.execCtlidleHlat s
  | .ctlidleRd => Sys2Proof.Machine.execCtlidleRd s
  | .ctlidleWr => Sys2Proof.Machine.execCtlidleWr s
  | .ctlidleRst => Sys2Proof.Machine.execCtlidleRst s
  | .setdirOut => Sys2Proof.Machine.execSetdirOut s
  | .setdirIn => Sys2Proof.Machine.execSetdirIn s
  | .presentLow => Sys2Proof.Machine.execPresentLow s
  | .presentHigh => Sys2Proof.Machine.execPresentHigh s
  | .pulseLlat => Sys2Proof.Machine.execPulseLlat s
  | .pulseHlat => Sys2Proof.Machine.execPulseHlat s
  | .pulseRd => Sys2Proof.Machine.execPulseRd s
  | .pulseWr => Sys2Proof.Machine.execPulseWr s
  | .pulseRst => Sys2Proof.Machine.execPulseRst s
  | .assertLlat => Sys2Proof.Machine.execAssertLlat s
  | .assertHlat => Sys2Proof.Machine.execAssertHlat s
  | .assertRd => Sys2Proof.Machine.execAssertRd s
  | .assertWr => Sys2Proof.Machine.execAssertWr s
  | .assertRst => Sys2Proof.Machine.execAssertRst s
  | .deassertLlat => Sys2Proof.Machine.execDeassertLlat s
  | .deassertHlat => Sys2Proof.Machine.execDeassertHlat s
  | .deassertRd => Sys2Proof.Machine.execDeassertRd s
  | .deassertWr => Sys2Proof.Machine.execDeassertWr s
  | .deassertRst => Sys2Proof.Machine.execDeassertRst s
  | .settle => Sys2Proof.Machine.execSettle s
  | .sample => Sys2Proof.Machine.execSample s
  | .emit => Sys2Proof.Machine.execEmit s
  | .advance => Sys2Proof.Machine.execAdvance s
  | .shutdown => Sys2Proof.Machine.execShutdown s
  | .halt => Sys2Proof.Machine.execHalt s

end Sys2Proof.Machine
end

