-- ==== Sys2Proof/Machine/Step.lean ====
section
/-! DEFINITION. One step of the machine, and the place its next op-word comes from. -/

namespace Sys2Proof.Machine

open Sys2Proof

/-- One step: a running block fetches the op at `pc` and executes it, or takes the fetch fault (spec/60_exceptions.md R222,
R224). A block that is halted or faulted is quiescent and stays as it is (spec/10_state.md R45; log 2). An invalid
configuration, or one whose `LOOP_PC` is not the canonical micro-ROM's 7, has no run (R42, R43; logs 6 and 26). -/
def step (s : State) : Host.Outcome State Fault Refusal :=
  if s.configured then
    if s.isRunning then
      match fetch s with
      | .ok i => exec i s
      | .error f => .next (s.takeFault f)
    else .next s
  else .refused .invalidConfiguration

/-- The state with an op-word placed in the micro-ROM at `pc`, a test micro-ROM (spec/30_encoding.md R101). Every op-word is
one byte, the first of the given bits (R98). A running block whose configuration may run that micro-ROM then executes it next. -/
def State.withFetchWord (s : State) (nbits w : Nat) : State :=
  { s with microRom := placeOpWord s.microRom s.pc (opWordOfBits nbits w) }

end Sys2Proof.Machine
end

