-- ==== Sys2Proof/Machine/Observe.lean ====
section
/-! DEFINITION. What an observer reads off a state: the trace and the end (spec/00_scope.md R14), the count of HAL events,
the time waited (spec/70_reset_and_hazards.md R270, R272) and the text the host writes (spec/43_host_control.md R197, R198). -/

namespace Sys2Proof.Machine

open Sys2Proof

/-- Whether an event is a HAL call: every event but `Out` and `Diag` (R14). -/
def Event.isHal : Event → Bool
  | .init _ => true
  | .cfg _ _ => true
  | .drive _ _ => true
  | .sample _ _ => true
  | .wait _ => true
  | .shutdown => true
  | .out _ _ => false
  | .diag => false

/-- The emitted pair of an `Out` event. -/
def Event.pair? : Event → Option (BusAddr × BusWord)
  | .out a w => some (a, w)
  | .init _ => none
  | .cfg _ _ => none
  | .drive _ _ => none
  | .sample _ _ => none
  | .wait _ => none
  | .shutdown => none
  | .diag => none

/-- The least time, in microseconds, that an event takes: a wait blocks for at least its duration (R139, R270). -/
def Event.waited : Event → Nat
  | .wait n => n
  | .init _ => 0
  | .cfg _ _ => 0
  | .drive _ _ => 0
  | .sample _ _ => 0
  | .shutdown => 0
  | .out _ _ => 0
  | .diag => 0

/-- The number of HAL events of a trace (R176, R200). -/
def halEventCount (es : List Event) : Nat := es.countP Event.isHal

/-- The least time a trace takes (R272). -/
def waitedMicros (es : List Event) : Nat := (es.map Event.waited).sum

/-- The observation of a run: the trace and the end, which is there once the block no longer runs (R14, R201). -/
def State.observation (s : State) : List Event × Option Status :=
  (s.trace, if s.status = .running then none else some s.status)

/-- A hex digit. -/
def hexDigit (c : HexCase) (n : BitVec 4) : Char :=
  match c with
  | .upper => ("0123456789ABCDEF".toList)[n.toNat]?.getD '0'
  | .lower => ("0123456789abcdef".toList)[n.toNat]?.getD '0'

/-- The hex digits of the n low nibbles of a number, most significant first, zero-padded. -/
def hexDigits (c : HexCase) (n : Nat) (v : Nat) : List Char :=
  (List.range n).reverse.map fun k => hexDigit c (BitVec.ofNat 4 (v / 16 ^ k))

/-- The line of text for a pair, the literal form of R198, with its line end. -/
def outputLine (c : HexCase) (a : BusAddr) (w : BusWord) : String :=
  String.ofList (['0', 'x'] ++ hexDigits c 6 a.toNat ++ [':', ' ', '0', 'x'] ++ hexDigits c 4 w.toNat ++ ['\n'])

/-- The lines the host has written (R198, R199). -/
def State.outputLines (s : State) : List String := s.out.map fun p => outputLine Config.hexCase p.1 p.2

/-- The diagnostics the host has given, each the text `DIAG_TEXT` (R197); a diagnostic is not an output line (R199). -/
def State.diagnostics (s : State) : List String :=
  s.trace.filterMap fun e => if e = .diag then some Config.diagText else none

end Sys2Proof.Machine
end

