-- ==== Sys2Proof/Safety.lean ====
section
/-! DEFINITION. The terms claims about runs are stated in: runs of the step, the invariant of the block under any micro-ROM,
the invariant of the canonical micro-ROM, the event lists the spec writes out, and what a control decision may depend on. -/

namespace Sys2Proof.Machine

open Sys2Proof

/-! ### Runs -/

/-- n steps, stopping at a refusal. -/
def runSteps : Nat → State → Result
  | 0, s => .next s
  | n + 1, s =>
    match step s with
    | .next t => runSteps n t
    | .fault f => .fault f
    | .refused r => .refused r

/-! ### The block under any micro-ROM -/

/-- p is `pc + 1` (R31). What the 5-bit `pc` becomes after index 31 is the model's inference (log 14), left open here. -/
def State.PcPlusOne (s : State) (p : MicroPc) : Prop := s.pc.toNat < 31 → p.toNat = s.pc.toNat + 1

/-- What the HAL's lifecycle allows of a trace: the state after an event, `none` for an event that may not come
(R44: "must succeed before any other call"; R195). -/
def halAfter (h : HalState) (e : Event) : Option HalState :=
  match e with
  | .out _ _ => some h
  | .init .ok => if h = .uninit then some .ready else none
  | .init .fail => if h = .uninit then some .uninit else none
  | .diag => if h = .uninit then some .uninit else none
  | .cfg _ _ => if h = .ready then some .ready else none
  | .drive _ _ => if h = .ready then some .ready else none
  | .sample _ _ => if h = .ready then some .ready else none
  | .wait _ => if h = .ready then some .ready else none
  | .shutdown => if h = .ready then some .shut else none

/-- The lifecycle after a list of events. -/
def halAfterAll (h : HalState) : List Event → Option HalState
  | [] => some h
  | e :: es =>
    match halAfter h e with
    | some h' => halAfterAll h' es
    | none => none

/-- What holds of the block whatever micro-ROM it runs. -/
structure BlockInv (s : State) : Prop where
  /-- The block drives the bus only while ReadStrobe is idle, HIGH (R120, R152, R267). -/
  strobeIdleInOutput : s.busDir = .output → s.ctl.rd = .known .high
  /-- No bus line has a recorded level unless the bus is in Output (R36, R133). -/
  drivenOnlyInOutput : s.busDir ≠ .output → s.busOut = Vector.replicate busWidth .unknown
  /-- At most one control signal is active (R138, R151). -/
  noOverlap : ∀ g h : Signal, s.ctl.get g = .known g.active → s.ctl.get h = .known h.active → g = h
  /-- Nothing is configured before INIT succeeds (R194). -/
  quietBeforeInit : s.hal = .uninit → s.busDir = .unknown ∧ ∀ g : Signal, s.ctl.get g = .unknown
  /-- The address counter is even (R33, R68). -/
  addrEven : s.addr.toNat % 2 = 0
  /-- Every emitted address is even (R68). -/
  outEven : ∀ p ∈ s.out, p.1.toNat % 2 = 0
  /-- `out` holds the pairs of the `Out` events, in order (R46, R164). -/
  outIsTrace : s.out = s.trace.filterMap Event.pair?
  /-- The trace follows the HAL's lifecycle and `hal` is where it ends (R44). -/
  lifecycle : halAfterAll .uninit s.trace = some s.hal

/-- The fault PULSE g or ASSERT g raises, `none` where it has its effect: the checks of R136 and R150 in their order, the
lowest signal id first (R222). ReadStrobe is active LOW, the other signals are active HIGH (R40). -/
def activationFault (s : State) (g : Signal) : Option ModelFault :=
  if s.hal ≠ .ready then some (.halNotReady s.pc)
  else if s.ctl.llat = .unknown then some (.signalUnconfigured .llat)
  else if s.ctl.hlat = .unknown then some (.signalUnconfigured .hlat)
  else if s.ctl.rd = .unknown then some (.signalUnconfigured .rd)
  else if s.ctl.wr = .unknown then some (.signalUnconfigured .wr)
  else if s.ctl.rst = .unknown then some (.signalUnconfigured .rst)
  else if s.ctl.llat = .known .high then some (.signalOverlap .llat)
  else if s.ctl.hlat = .known .high then some (.signalOverlap .hlat)
  else if s.ctl.rd = .known .low then some (.signalOverlap .rd)
  else if s.ctl.wr = .known .high then some (.signalOverlap .wr)
  else if s.ctl.rst = .known .high then some (.signalOverlap .rst)
  else if g = .rd ∧ s.busDir ≠ .input then some (.busContention s.pc)
  else none

/-- The fault PRESENT raises, in the order of R130 and R131. -/
def presentFault (s : State) : Option ModelFault :=
  if s.hal ≠ .ready then some (.halNotReady s.pc)
  else if s.busDir ≠ .output then some (.busNotOutput s.pc)
  else if s.addr.getLsbD 0 = true ∨ s.addr.getLsbD 24 = true then some (.addrInvalid s.addr)
  else none

/-- The control lines all at their idle levels: LOW, but HIGH for ReadStrobe (R40, R52). -/
def ctlAllIdle : CtlLines :=
  { llat := .known .low, hlat := .known .low, rd := .known .high, wr := .known .low, rst := .known .low }

/-! ### The canonical micro-ROM -/

/-- The trace of BOOT, 27 events (R193). -/
def bootEvents (c : Configuration) : List Event :=
  [.init .ok,
    .cfg c.lineLlat .output, .drive c.lineLlat .low, .cfg c.lineHlat .output, .drive c.lineHlat .low,
    .cfg c.lineRd .output, .drive c.lineRd .high, .cfg c.lineWr .output, .drive c.lineWr .low,
    .cfg c.lineRst .output, .drive c.lineRst .low]
  ++ (List.range 16).map fun i => .cfg (c.busBase + i) .output

/-- The Bus Word of 16 levels by the formula of R161. -/
def sumWord (v : Nat → Level) : BusWord :=
  BitVec.ofNat 16 (∑ i ∈ Finset.range 16, if v i = .high then 2 ^ i else 0)

/-- The 82 events of one read cycle at address a whose sampled levels are v, as R175 writes them out. -/
def cycleEvents (c : Configuration) (a : Addr) (v : Nat → Level) : List Event :=
  ((List.range 16).map fun i => .drive (c.busBase + i) (if a.getLsbD i then .high else .low))
  ++ [.drive c.lineLlat .high, .wait c.latchHoldUs, .drive c.lineLlat .low]
  ++ ((List.range 8).map fun i => .drive (c.busBase + i) (if a.getLsbD (16 + i) then .high else .low))
  ++ [.drive c.lineHlat .high, .wait c.latchHoldUs, .drive c.lineHlat .low]
  ++ ((List.range 16).map fun i => .cfg (c.busBase + i) .input)
  ++ [.drive c.lineRd .low, .wait c.strobeSettleUs]
  ++ ((List.range 16).map fun i => .sample (c.busBase + i) (v i))
  ++ [.drive c.lineRd .high]
  ++ ((List.range 16).map fun i => .cfg (c.busBase + i) .output)
  ++ [.out (a.setWidth 24) (sumWord v)]

/-- The state a read cycle starts from (R175), with the canonical micro-ROM and a valid configuration. -/
structure CycleStart (s : State) : Prop where
  valid : s.cfg.valid = true
  rom : s.microRom = canonicalRom
  loop : s.cfg.loopPc = 7#5
  running : s.status = .running
  atLoop : s.pc = 7#5
  addrEven : s.addr.toNat % 2 = 0
  addrInBank : s.addr.toNat < s.cfg.bankSize.toNat
  output : s.busDir = .output
  idle : s.ctl = ctlAllIdle
  ready : s.hal = .ready

/-- The level bus line i shows in the read cycle at address a: the device's word where its content is listed (R72),
else the draw (R70). -/
def cycleLevel (s : State) (i : Nat) : Level :=
  match s.deviceRom.read s.addr.toNat with
  | some w => if w.getLsbD i then .high else .low
  | none => s.halIn.levelDraw i

/-- The addresses 0, 2, 4, … of the first n pairs (R172). -/
def evenAddrs (n : Nat) : List BusAddr := (List.range n).map fun k => BitVec.ofNat 24 (2 * k)

/-- The start of a run: power-on reset in a configuration, with the answers the HAL will give and a device content taken as a
premise (R49, R72). -/
def startOf (c : Configuration) (h : HalInput) (m : Memory) : State :=
  { State.resetWith c with halIn := h, deviceRom := m }

/-- The level bus line i shows in cycle k of a whole run: the device's word at address 2k where it is listed, else the draw of
the (16k + i)-th `HAL.sample()` call (R70, R72, R200). -/
def runLevel (h : HalInput) (m : Memory) (k i : Nat) : Level :=
  match m.read (2 * k) with
  | some w => if w.getLsbD i then .high else .low
  | none => h.levelDraw (16 * k + i)

/-- What holds while the canonical micro-ROM runs, before the op at `pc`. -/
structure CanonicalAt (s : State) : Prop where
  inRom : s.pc.toNat ≤ 20
  uninit : s.pc.toNat = 0 → s.hal = .uninit
  ready : 1 ≤ s.pc.toNat → s.pc.toNat ≤ 19 → s.hal = .ready
  shut : s.pc.toNat = 20 → s.hal = .shut
  output : (7 ≤ s.pc.toNat ∧ s.pc.toNat ≤ 11) ∨ 17 ≤ s.pc.toNat → s.busDir = .output
  input : 12 ≤ s.pc.toNat → s.pc.toNat ≤ 16 → s.busDir = .input
  strobe : 13 ≤ s.pc.toNat → s.pc.toNat ≤ 15 → s.ctl.rd = .known .low
  idle : ∀ g : Signal, g.id + 2 ≤ s.pc.toNat → (g = .rd → s.pc.toNat ≤ 12 ∨ 16 ≤ s.pc.toNat) →
    s.ctl.get g = .known g.idle
  sampled : 15 ≤ s.pc.toNat → s.pc.toNat ≤ 18 → s.wvalid = true
  addrZero : s.pc.toNat ≤ 6 → s.addr = 0#25
  addrEven : s.addr.toNat % 2 = 0
  addrInBank : s.pc.toNat ≤ 18 → s.addr.toNat < s.cfg.bankSize.toNat
  addrAtEnd : 19 ≤ s.pc.toNat → s.addr = s.cfg.bankSize
  emitted : s.out.map Prod.fst = evenAddrs (s.addr.toNat / 2 + if s.pc.toNat = 18 then 1 else 0)

/-- The invariant of the hardware itself: the canonical micro-ROM in a valid configuration, running, finished with exit code
0 after the whole bank, or halted with exit code 1 and no pair (R200). No model fault is among the cases. -/
structure CanonicalInv (s : State) : Prop where
  valid : s.cfg.valid = true
  rom : s.microRom = canonicalRom
  loop : s.cfg.loopPc = 7#5
  phase : (s.status = .running ∧ CanonicalAt s)
    ∨ (s.status = .halted 0#8 ∧ s.pc = 20#5 ∧ s.hal = .shut ∧ s.addr = s.cfg.bankSize
        ∧ s.out.map Prod.fst = evenAddrs (s.cfg.bankSize.toNat / 2))
    ∨ (s.status = .halted 1#8 ∧ s.pc = 0#5 ∧ s.hal = .uninit ∧ s.out = [])

/-! ### What control may depend on (R47, R177) -/

/-- An event with the value that came from a sample left out. -/
def Event.shape : Event → Event
  | .sample l _ => .sample l .low
  | .out a _ => .out a 0#16
  | .init r => .init r
  | .cfg l d => .cfg l d
  | .drive l v => .drive l v
  | .wait n => .wait n
  | .shutdown => .shutdown
  | .diag => .diag

/-- Two states that may differ only in sampled values: in `word`, in the words of `out`, in the sampled levels of the trace,
in the device's content and in the answers the HAL will give to `sampleLine`. -/
structure SameControl (s t : State) : Prop where
  pc : s.pc = t.pc
  addr : s.addr = t.addr
  wvalid : s.wvalid = t.wvalid
  busDir : s.busDir = t.busDir
  busOut : s.busOut = t.busOut
  ctl : s.ctl = t.ctl
  hal : s.hal = t.hal
  status : s.status = t.status
  outAddrs : s.out.map Prod.fst = t.out.map Prod.fst
  devA : s.devA = t.devA
  trace : s.trace.map Event.shape = t.trace.map Event.shape
  cfg : s.cfg = t.cfg
  microRom : s.microRom = t.microRom
  inits : s.halIn.inits = t.halIn.inits
  initCount : s.halIn.initCount = t.halIn.initCount

end Sys2Proof.Machine
end

