-- ==== Sys2Proof/Certificates/Slice0/Obligations.lean ====
section
/-! DEFINITION. The statements for the provers. A next state written as a record update of `s` is the whole next state, so it
says the frame too: every field it does not name is unchanged. -/

open Sys2Proof Sys2Proof.Machine

/-! ### Encoding -/

/-- Every instruction's op-word decodes to it (R91, R97), and the fields of that word are legal (R92 to R95). -/
def Obligations.DecodeOfEncodeIsInstruction : Prop :=
  ∀ i : Instr, decode (encode i) = .ok i ∧ legalFields (opField (encode i)) (argField (encode i)) = true

/-- No two words decode to one instruction. -/
def Obligations.DecodedWordIsTheEncoding : Prop :=
  ∀ (w : OpWord) (i : Instr), decode w = .ok i → w = encode i

/-- R96: the 31 legal op-words, and the fault of every other one at fetch. -/
def Obligations.LegalWordsAreExactlyThirtyOne : Prop :=
  ∃ legal : List OpWord,
    legal = [0x00, 0x10, 0x11, 0x12, 0x13, 0x14, 0x20, 0x21, 0x30, 0x31, 0x40, 0x41, 0x42, 0x43, 0x44, 0x50, 0x51, 0x52,
      0x53, 0x54, 0x60, 0x61, 0x62, 0x63, 0x64, 0x70, 0x80, 0x90, 0xA0, 0xB0, 0xC0] ∧
    legal.length = 31 ∧ legal.Nodup ∧
    (∀ w ∈ legal, ∃ i, decode w = .ok i) ∧
    (∀ w, w ∉ legal → decode w = .error (.illegalOp w)) ∧
    ∀ (s : State) (w : OpWord), s.configured = true → s.status = .running → s.microRom[s.pc.toNat]? = some w → w ∉ legal →
      step s = .next { s with status := .faulted (.illegalOp w) }

/-- One word of each family, written out bit by bit from R191, R192, R121, R131, R136, R150, R155, R158, R160, R164, R170,
R195 and R196. -/
def Obligations.WordsWrittenOutDecode : Prop :=
  decode 0b00000000#8 = .ok .init ∧ decode 0b00010100#8 = .ok .ctlidleRst ∧ decode 0b00100001#8 = .ok .setdirIn ∧
  decode 0b00110001#8 = .ok .presentHigh ∧ decode 0b01000001#8 = .ok .pulseHlat ∧ decode 0b01010010#8 = .ok .assertRd ∧
  decode 0b01100011#8 = .ok .deassertWr ∧ decode 0b01110000#8 = .ok .settle ∧ decode 0b10000000#8 = .ok .sample ∧
  decode 0b10010000#8 = .ok .emit ∧ decode 0b10100000#8 = .ok .advance ∧ decode 0b10110000#8 = .ok .shutdown ∧
  decode 0b11000000#8 = .ok .halt

/-- R100: the 21 entries of the canonical micro-ROM, as bytes and as ops. -/
def Obligations.CanonicalRomHasTheListedOps : Prop :=
  canonicalRom.length = 21 ∧
  canonicalRom = [0x00, 0x10, 0x11, 0x12, 0x13, 0x14, 0x20, 0x30, 0x40, 0x31, 0x41, 0x21, 0x52, 0x70, 0x80, 0x62, 0x20, 0x90,
    0xA0, 0xB0, 0xC0] ∧
  canonicalRom.map decode = ([.init, .ctlidleLlat, .ctlidleHlat, .ctlidleRd, .ctlidleWr, .ctlidleRst, .setdirOut,
    .presentLow, .pulseLlat, .presentHigh, .pulseHlat, .setdirIn, .assertRd, .settle, .sample, .deassertRd, .setdirOut,
    .emit, .advance, .shutdown, .halt] : List Instr).map Except.ok ∧
  ∀ c : Configuration, (State.resetWith c).microRom = canonicalRom

/-! ### Step, fetch, reset -/

/-- A step of a running block whose configuration is valid for its micro-ROM (R42, R43) is `exec` of the op the word at `pc` decodes to, with nothing around
it. -/
def Obligations.StepRunsDecodedInstruction : Prop :=
  ∀ (s : State) (w : OpWord) (i : Instr), s.configured = true → s.status = .running →
    s.microRom[s.pc.toNat]? = some w → decode w = .ok i → step s = exec i s

/-- A word placed for a test program is the word the next step runs, and nothing but the micro-ROM changes (log 15). -/
def Obligations.PlacedWordIsRunNext : Prop :=
  ∀ (s : State) (w : OpWord) (i : Instr), (s.withFetchWord 8 w.toNat).configured = true → s.status = .running →
    decode w = .ok i →
    step (s.withFetchWord 8 w.toNat) = exec i (s.withFetchWord 8 w.toNat) ∧
    { s.withFetchWord 8 w.toNat with microRom := s.microRom } = s

/-- Fetch at an index past the micro-ROM raises `F_PC_RANGE` with `pc` as info (R31, R221). -/
def Obligations.FetchPastRomFaults : Prop :=
  ∀ s : State, s.configured = true → s.status = .running → s.microRom.length ≤ s.pc.toNat →
    step s = .next { s with status := .faulted (.pcRange s.pc) }

/-- Once the status is not Running a step changes nothing (R45; log 2). -/
def Obligations.StoppedBlockStaysAsItIs : Prop :=
  ∀ (s : State) (n : Nat), s.configured = true → s.status ≠ .running → runSteps n s = .next s

/-- R43: what a valid configuration is; R42, R43: an invalid one has no run, nor has the canonical micro-ROM with a `LOOP_PC`
other than 7, and every other state has a step. That another micro-ROM may have any `LOOP_PC` is read from R101 (log 26), and
that the refusal comes at the step is the model's choice (log 6). -/
def Obligations.InvalidConfigurationIsRefused : Prop :=
  (∀ c : Configuration, c.valid = true ↔
    (∀ i j : Nat, i < 16 → j < 16 → i ≠ j → c.busBase + i ≠ c.busBase + j) ∧
    (∀ (i : Nat) (g : Signal), i < 16 → c.busBase + i ≠ c.line g) ∧
    (∀ g h : Signal, g ≠ h → c.line g ≠ c.line h) ∧
    1 ≤ c.latchHoldUs ∧ 1 ≤ c.strobeSettleUs ∧
    c.bankSize.toNat % 2 = 0 ∧ 2 ≤ c.bankSize.toNat ∧ c.bankSize.toNat ≤ 0x1000000) ∧
  ∀ s : State,
    (s.cfg.valid = false ∨ (s.microRom = canonicalRom ∧ s.cfg.loopPc ≠ 7#5) → step s = .refused .invalidConfiguration) ∧
    (s.cfg.valid = true → (s.microRom = canonicalRom → s.cfg.loopPc = 7#5) → ∃ t, step s = .next t)

/-- The reset values R51 gives. (`word`, which R51 gives no value, is 0 by the model's choice, log 12, and not stated here.) -/
def Obligations.ResetLeavesTheListedValues : Prop :=
  ∀ c : Configuration, ∃ s, s = State.resetWith c ∧ s.cfg = c ∧ s.pc = 0#5 ∧ s.addr = 0#25 ∧ s.wvalid = false ∧
    s.busDir = .unknown ∧ (∀ i : Fin 16, s.busOut[i] = .unknown) ∧ (∀ g : Signal, s.ctl.get g = .unknown) ∧
    s.hal = .uninit ∧ s.status = .running ∧ s.out = [] ∧ s.trace = [] ∧ s.devA.low = none ∧ s.devA.high = none

/-! ### The ops, each with its whole next state -/

/-- R191. The HAL's answer is a draw (`initDraw`, log 8); its use is recorded in `halIn`. -/
def Obligations.InitBringsUpTheHalOrHalts : Prop :=
  decode 0b00000000#8 = .ok .init ∧ ∀ s : State,
    (s.hal = .uninit → s.halIn.initDraw = .ok →
      ∃ p, s.PcPlusOne p ∧ exec .init s = .next { s with
        hal := .ready, pc := p, trace := s.trace ++ [.init .ok], halIn := s.halIn.afterInit }) ∧
    (s.hal = .uninit → s.halIn.initDraw = .fail →
      exec .init s = .next { s with
        status := .halted 1#8, trace := s.trace ++ [.init .fail, .diag], halIn := s.halIn.afterInit }) ∧
    (s.hal ≠ .uninit → exec .init s = .next { s with status := .faulted (.doubleInit s.pc) })

/-- R192, with the idle level of each signal from R40. That CTLIDLE of a latch signal leaves the device's latch (R72) is the
model's choice (log 11). -/
def Obligations.CtlidleDrivesTheIdleLevel : Prop :=
  ∀ (w : OpWord) (i : Instr) (g : Signal) (v : Level),
    (w, i, g, v) ∈ ([(0b00010000#8, .ctlidleLlat, .llat, .low), (0b00010001#8, .ctlidleHlat, .hlat, .low),
      (0b00010010#8, .ctlidleRd, .rd, .high), (0b00010011#8, .ctlidleWr, .wr, .low),
      (0b00010100#8, .ctlidleRst, .rst, .low)] : List (OpWord × Instr × Signal × Level)) →
    decode w = .ok i ∧ ∀ s : State,
      (s.hal = .ready → ∃ p, s.PcPlusOne p ∧ exec i s = .next { s with
        ctl := s.ctl.set g (.known v), pc := p
        trace := s.trace ++ [.cfg (s.cfg.line g) .output, .drive (s.cfg.line g) v] }) ∧
      (s.hal ≠ .ready → exec i s = .next { s with status := .faulted (.halNotReady s.pc) })

/-- R120. -/
def Obligations.SetdirOutTurnsTheBusToOutput : Prop :=
  decode 0b00100000#8 = .ok .setdirOut ∧ ∀ s : State,
    (s.hal = .ready → s.ctl.rd = .known .high → ∃ p, s.PcPlusOne p ∧ exec .setdirOut s = .next { s with
      busDir := .output, busOut := Vector.replicate 16 .unknown, pc := p
      trace := s.trace ++ (List.range 16).map fun i => .cfg (s.cfg.busBase + i) .output }) ∧
    (s.hal ≠ .ready → exec .setdirOut s = .next { s with status := .faulted (.halNotReady s.pc) }) ∧
    (s.hal = .ready → s.ctl.rd ≠ .known .high →
      exec .setdirOut s = .next { s with status := .faulted (.busContention s.pc) })

/-- R121. -/
def Obligations.SetdirInReleasesTheBus : Prop :=
  decode 0b00100001#8 = .ok .setdirIn ∧ ∀ s : State,
    (s.hal = .ready → ∃ p, s.PcPlusOne p ∧ exec .setdirIn s = .next { s with
      busDir := .input, busOut := Vector.replicate 16 .unknown, pc := p
      trace := s.trace ++ (List.range 16).map fun i => .cfg (s.cfg.busBase + i) .input }) ∧
    (s.hal ≠ .ready → exec .setdirIn s = .next { s with status := .faulted (.halNotReady s.pc) })

/-- R130. -/
def Obligations.PresentLowDrivesTheLowBits : Prop :=
  decode 0b00110000#8 = .ok .presentLow ∧ ∀ s : State,
    (s.hal = .ready → s.busDir = .output → s.addr.getLsbD 0 = false → s.addr.getLsbD 24 = false →
      ∃ p, s.PcPlusOne p ∧ exec .presentLow s = .next { s with
        busOut := Vector.ofFn fun i : Fin 16 => .known (if s.addr.getLsbD i.val then .high else .low)
        pc := p
        trace := s.trace ++ (List.range 16).map fun i =>
          .drive (s.cfg.busBase + i) (if s.addr.getLsbD i then .high else .low) }) ∧
    ∀ f, presentFault s = some f → exec .presentLow s = .next { s with status := .faulted f }

/-- R131. -/
def Obligations.PresentHighDrivesTheHighBits : Prop :=
  decode 0b00110001#8 = .ok .presentHigh ∧ ∀ s : State,
    (s.hal = .ready → s.busDir = .output → s.addr.getLsbD 0 = false → s.addr.getLsbD 24 = false →
      ∃ p, s.PcPlusOne p ∧ exec .presentHigh s = .next { s with
        busOut := Vector.ofFn fun i : Fin 16 =>
          if i.val < 8 then .known (if s.addr.getLsbD (16 + i.val) then .high else .low) else .unknown
        pc := p
        trace := s.trace ++ (List.range 8).map fun i =>
          .drive (s.cfg.busBase + i) (if s.addr.getLsbD (16 + i) then .high else .low) }) ∧
    ∀ f, presentFault s = some f → exec .presentHigh s = .next { s with status := .faulted f }

/-- R136. A pulse of a latch signal makes the device capture the bus (R72); a pulse of another leaves its latch (log 25). -/
def Obligations.PulseDrivesHoldsReturns : Prop :=
  ∀ (w : OpWord) (i : Instr) (g : Signal) (on off : Level),
    (w, i, g, on, off) ∈ ([(0b01000000#8, .pulseLlat, .llat, .high, .low), (0b01000001#8, .pulseHlat, .hlat, .high, .low),
      (0b01000010#8, .pulseRd, .rd, .low, .high), (0b01000011#8, .pulseWr, .wr, .high, .low),
      (0b01000100#8, .pulseRst, .rst, .high, .low)] : List (OpWord × Instr × Signal × Level × Level)) →
    decode w = .ok i ∧ ∀ s : State,
      (s.hal = .ready → s.ctl = ctlAllIdle → (g = .rd → s.busDir = .input) → ∃ p, s.PcPlusOne p ∧ exec i s = .next { s with
        devA := match g with
          | .llat => { s.devA with low := captureLow s.busOut }
          | .hlat => { s.devA with high := captureHigh s.busOut }
          | .rd | .wr | .rst => s.devA
        pc := p
        trace := s.trace ++ [.drive (s.cfg.line g) on, .wait s.cfg.latchHoldUs, .drive (s.cfg.line g) off] }) ∧
      (∀ f, activationFault s g = some f → exec i s = .next { s with status := .faulted f })

/-- R150. That ASSERT of a latch signal leaves the device's latch (R72) is the model's choice (log 11), and so is that the
device does not answer ASSERT WR or ASSERT RST (log 25). -/
def Obligations.AssertDrivesTheActiveLevel : Prop :=
  ∀ (w : OpWord) (i : Instr) (g : Signal) (v : Level),
    (w, i, g, v) ∈ ([(0b01010000#8, .assertLlat, .llat, .high), (0b01010001#8, .assertHlat, .hlat, .high),
      (0b01010010#8, .assertRd, .rd, .low), (0b01010011#8, .assertWr, .wr, .high),
      (0b01010100#8, .assertRst, .rst, .high)] : List (OpWord × Instr × Signal × Level)) →
    decode w = .ok i ∧ ∀ s : State,
      (s.hal = .ready → s.ctl = ctlAllIdle → (g = .rd → s.busDir = .input) → ∃ p, s.PcPlusOne p ∧ exec i s = .next { s with
        ctl := s.ctl.set g (.known v), pc := p, trace := s.trace ++ [.drive (s.cfg.line g) v] }) ∧
      (∀ f, activationFault s g = some f → exec i s = .next { s with status := .faulted f })

/-- R155. That DEASSERT of a latch signal leaves the device's latch (R72) is the model's choice (log 11). -/
def Obligations.DeassertDrivesTheIdleLevel : Prop :=
  ∀ (w : OpWord) (i : Instr) (g : Signal) (v : Level),
    (w, i, g, v) ∈ ([(0b01100000#8, .deassertLlat, .llat, .low), (0b01100001#8, .deassertHlat, .hlat, .low),
      (0b01100010#8, .deassertRd, .rd, .high), (0b01100011#8, .deassertWr, .wr, .low),
      (0b01100100#8, .deassertRst, .rst, .low)] : List (OpWord × Instr × Signal × Level)) →
    decode w = .ok i ∧ ∀ s : State,
      (s.hal = .ready → s.ctl.get g ≠ .unknown → ∃ p, s.PcPlusOne p ∧ exec i s = .next { s with
        ctl := s.ctl.set g (.known v), pc := p, trace := s.trace ++ [.drive (s.cfg.line g) v] }) ∧
      (s.hal ≠ .ready → exec i s = .next { s with status := .faulted (.halNotReady s.pc) }) ∧
      (s.hal = .ready → s.ctl.get g = .unknown →
        exec i s = .next { s with status := .faulted (.signalUnconfigured g) })

/-- R158; time is the `Wait` event (R270, log 17). -/
def Obligations.SettleWaitsTheSettleInterval : Prop :=
  decode 0b01110000#8 = .ok .settle ∧ ∀ s : State,
    (s.hal = .ready → ∃ p, s.PcPlusOne p ∧ exec .settle s = .next { s with
      pc := p, trace := s.trace ++ [.wait s.cfg.strobeSettleUs] }) ∧
    (s.hal ≠ .ready → exec .settle s = .next { s with status := .faulted (.halNotReady s.pc) })

/-- R160 and R161. The levels are those bus line 0 to 15 show (`lineLevel`: R72 or a draw, log 8). -/
def Obligations.SamplePacksTheSixteenLevels : Prop :=
  decode 0b10000000#8 = .ok .sample ∧ ∀ s : State,
    (s.hal = .ready → s.busDir = .input →
      ∃ p, s.PcPlusOne p ∧ exec .sample s = .next { s with
        word := sumWord s.lineLevel, wvalid := true, pc := p
        trace := s.trace ++ (List.range 16).map fun i => .sample (s.cfg.busBase + i) (s.lineLevel i)
        halIn := s.halIn.afterLevels 16 } ∧
      ∀ i, i < 16 → (sumWord s.lineLevel).getLsbD i = (s.lineLevel i == .high)) ∧
    (s.hal ≠ .ready → exec .sample s = .next { s with status := .faulted (.halNotReady s.pc) }) ∧
    (s.hal = .ready → s.busDir ≠ .input → exec .sample s = .next { s with status := .faulted (.busNotInput s.pc) })

/-- R164. -/
def Obligations.EmitYieldsThePair : Prop :=
  decode 0b10010000#8 = .ok .emit ∧ ∀ s : State,
    (s.wvalid = true → s.addr.getLsbD 0 = false → s.addr.getLsbD 24 = false → ∃ p, s.PcPlusOne p ∧ exec .emit s = .next { s with
      out := s.out ++ [(s.addr.setWidth 24, s.word)], pc := p
      trace := s.trace ++ [.out (s.addr.setWidth 24) s.word] }) ∧
    (s.wvalid = false → exec .emit s = .next { s with status := .faulted (.wordUnwritten s.pc) }) ∧
    (s.wvalid = true → s.addr.getLsbD 0 = true ∨ s.addr.getLsbD 24 = true →
      exec .emit s = .next { s with status := .faulted (.addrInvalid s.addr) })

/-- R170 and R171, with the add on numbers. -/
def Obligations.AdvanceAddsTwoAndTestsTheBank : Prop :=
  decode 0b10100000#8 = .ok .advance ∧ ∀ (s : State) (a : Addr), a.toNat = (s.addr.toNat + 2) % 2 ^ 25 →
    (s.cfg.bankSize.toNat ≤ a.toNat →
      ∃ p, s.PcPlusOne p ∧ exec .advance s = .next { s with addr := a, wvalid := false, pc := p }) ∧
    (a.toNat < s.cfg.bankSize.toNat →
      exec .advance s = .next { s with addr := a, wvalid := false, pc := s.cfg.loopPc })

/-- R195. -/
def Obligations.ShutdownTearsTheHalDown : Prop :=
  decode 0b10110000#8 = .ok .shutdown ∧ ∀ s : State,
    (s.hal = .ready → ∃ p, s.PcPlusOne p ∧ exec .shutdown s = .next { s with
      hal := .shut, pc := p, trace := s.trace ++ [.shutdown] }) ∧
    (s.hal ≠ .ready → exec .shutdown s = .next { s with status := .faulted (.halNotReady s.pc) })

/-- R196. -/
def Obligations.HaltEndsWithSuccess : Prop :=
  decode 0b11000000#8 = .ok .halt ∧ ∀ s : State, exec .halt s = .next { s with status := .halted 0#8 }

/-! ### The device and the draws -/

/-- R72: what a latch pulse captures of a bus whose lines are known, and that one Unknown line makes the half Unknown. -/
def Obligations.LatchCapturesTheBusBits : Prop :=
  ∀ b : Vector Recorded 16,
    (∀ x : BitVec 16, (∀ i : Fin 16, b[i] = .known (if x.getLsbD i.val then .high else .low)) → captureLow b = some x) ∧
    (∀ x : BitVec 8, (∀ i : Fin 16, i.val < 8 → b[i] = .known (if x.getLsbD i.val then .high else .low)) →
      captureHigh b = some x) ∧
    ((∃ i : Fin 16, b[i] = .unknown) → captureLow b = none) ∧
    ((∃ i : Fin 16, i.val < 8 ∧ b[i] = .unknown) → captureHigh b = none)

/-- R72: while the strobe is active and the bus is in Input, a listed even address answers its word; in every other case each
level is the draw of its call (R70). -/
def Obligations.SampledLevelsComeFromDeviceOrDraws : Prop :=
  ∀ (s : State) (i : Nat),
    (∀ (h : BitVec 8) (l : BitVec 16) (w : BusWord), s.ctl.rd = .known .low → s.busDir = .input → s.devA.high = some h →
      s.devA.low = some l → l.getLsbD 0 = false → s.deviceRom.read (h.toNat * 65536 + l.toNat) = some w →
      s.lineLevel i = if w.getLsbD i then .high else .low) ∧
    ((¬ ∃ (h : BitVec 8) (l : BitVec 16) (w : BusWord), s.ctl.rd = .known .low ∧ s.busDir = .input ∧ s.devA.high = some h ∧
      s.devA.low = some l ∧ l.getLsbD 0 = false ∧ s.deviceRom.read (h.toNat * 65536 + l.toNat) = some w) →
      s.lineLevel i = s.halIn.levelDraw i)

/-- R70: "a word is always emitted for every address, even if the underlying sample is meaningless": every word whatever can
be sampled. The list of answers is the model's (log 8). -/
def Obligations.SampleAcceptsEveryWord : Prop :=
  ∀ (s : State) (w : BusWord), s.hal = .ready → s.busDir = .input → s.deviceRom = [] →
    s.halIn.levels = (List.range 16).map (fun i => if w.getLsbD i then .high else .low) →
    ∃ p, s.PcPlusOne p ∧ exec .sample s = .next { s with
      word := w, wvalid := true, pc := p
      trace := s.trace ++ (List.range 16).map fun i =>
        .sample (s.cfg.busBase + i) (if w.getLsbD i then .high else .low)
      halIn := { s.halIn with levels := [], levelCount := s.halIn.levelCount + 16 } }

/-! ### Every op -/

/-- No instruction stops the model: each answers a next state from every state (R224 for its faults). -/
def Obligations.EveryOpAnswersANextState : Prop :=
  ∀ (i : Instr) (s : State), ∃ t, exec i s = .next t

/-- R33: ADVANCE alone writes `addr`. -/
def Obligations.OnlyAdvanceWritesTheAddress : Prop :=
  (∀ c : Configuration, (State.resetWith c).addr = 0#25) ∧
  (∀ (i : Instr) (s t : State), i ≠ .advance → exec i s = .next t → t.addr = s.addr) ∧
  ∀ s t : State, exec .advance s = .next t → t.addr = s.addr + 2#25

/-- The "written by" column of R30 for the other registers, the device's latch (R72), and what no op writes (R9, R76, R61).
That CTLIDLE, ASSERT and DEASSERT of a latch signal leave the device's latch (log 11), that the device does not answer a pulse
of RD, WR or RST or an assertion of WR or RST (log 25), and that its content is a State field (log 9) are the model's choices. -/
def Obligations.RegistersHaveOnlyTheirWriters : Prop :=
  ∀ (i : Instr) (s t : State), exec i s = .next t →
    (i ≠ .sample → t.word = s.word) ∧
    (i ≠ .sample → i ≠ .advance → t.wvalid = s.wvalid) ∧
    (i ≠ .setdirOut → i ≠ .setdirIn → t.busDir = s.busDir) ∧
    (i ≠ .setdirOut → i ≠ .setdirIn → i ≠ .presentLow → i ≠ .presentHigh → t.busOut = s.busOut) ∧
    (i ∈ ([.init, .setdirOut, .setdirIn, .presentLow, .presentHigh, .settle, .sample, .emit, .advance, .shutdown, .halt] :
      List Instr) → t.ctl = s.ctl) ∧
    (i ≠ .init → i ≠ .shutdown → t.hal = s.hal) ∧
    (i ≠ .init → i ≠ .halt → t.status = s.status ∨ ∃ f, t.status = .faulted f) ∧
    (i ≠ .emit → t.out = s.out) ∧
    (i ≠ .pulseLlat → i ≠ .pulseHlat → t.devA = s.devA) ∧
    t.cfg = s.cfg ∧ t.microRom = s.microRom ∧ t.deviceRom = s.deviceRom

/-- R31: an op that completes adds 1 to the 5-bit `pc` (31 becomes 0 by the model's inference, log 14), ADVANCE goes to
`LOOP_PC` or adds 1, and an op that stops the block leaves `pc` at itself. -/
def Obligations.PcStepsByOneOrStays : Prop :=
  ∀ (i : Instr) (s t : State), s.status = .running → exec i s = .next t →
    (t.status ≠ .running → t.pc = s.pc) ∧
    (t.status = .running → i ≠ .advance → t.pc = s.pc + 1#5) ∧
    (t.status = .running → i = .advance → t.pc = s.cfg.loopPc ∨ t.pc = s.pc + 1#5)

/-- R194, R195: with the HAL not ready, every op that calls the HAL, other than INIT, raises `F_HAL_NOT_READY`, before any
other check of its own (R222). -/
def Obligations.HalOpsFaultUnlessReady : Prop :=
  ∀ (i : Instr) (s : State), i ≠ .init → i ≠ .emit → i ≠ .advance → i ≠ .halt → s.hal ≠ .ready →
    exec i s = .next { s with status := .faulted (.halNotReady s.pc) }

/-- R222, R224: a step that takes a fault changes nothing but `status`. -/
def Obligations.FaultChangesOnlyTheStatus : Prop :=
  ∀ (s t : State) (f : ModelFault), s.status = .running → step s = .next t → t.status = .faulted f →
    t = { s with status := .faulted f }

/-- R14, R45, R46: a run never takes back an event or a pair, and never changes the configuration, the micro-ROM or the
device's content (R61, R72). The content is a State field by the model's choice (log 9), and so is that the device does not
answer WriteStrobe (log 25). -/
def Obligations.TraceAndOutputOnlyGrow : Prop :=
  ∀ (n : Nat) (s t : State), runSteps n s = .next t →
    s.trace <+: t.trace ∧ s.out <+: t.out ∧ t.cfg = s.cfg ∧ t.microRom = s.microRom ∧ t.deviceRom = s.deviceRom

/-- R137: a pulse that does not fault ends with its signal idle and with the event that drove it so. -/
def Obligations.PulseAlwaysEndsIdle : Prop :=
  ∀ (i : Instr) (g : Signal) (v : Level) (s t : State),
    (i, g, v) ∈ ([(.pulseLlat, .llat, .low), (.pulseHlat, .hlat, .low), (.pulseRd, .rd, .high), (.pulseWr, .wr, .low),
      (.pulseRst, .rst, .low)] : List (Instr × Signal × Level)) →
    exec i s = .next t → (∀ f, t.status ≠ .faulted f) →
    t.ctl.get g = .known v ∧ t.trace.getLast? = some (.drive (s.cfg.line g) v)

/-- R177, R47: sampled values decide nothing. Two states that differ only in sampled values (and in what the next samples
will give) step to two such states. -/
def Obligations.ControlIgnoresSampledValues : Prop :=
  ∀ s t s' : State, SameControl s t → step s = .next s' → ∃ t', step t = .next t' ∧ SameControl s' t'

/-- Every step keeps the invariant of the block, whatever the micro-ROM (R36, R44, R46, R68, R138, R152, R194, R267). -/
def Obligations.StepKeepsBlockInv : Prop :=
  ∀ s t : State, BlockInv s → step s = .next t → BlockInv t

/-- The invariant of the block holds at power-on reset in every configuration, so at `State.reset`. -/
def Obligations.ResetHasBlockInv : Prop :=
  (∀ c : Configuration, BlockInv (State.resetWith c)) ∧ BlockInv State.reset

/-! ### The canonical micro-ROM, which is the hardware (R101) -/

/-- R193, R52: if `HAL.init()` succeeds, seven steps from power-on reset lead to the source's initial state, with 27 HAL
events. That CTLIDLE of the latch signals leaves the device's latch Unknown (R72) is the model's choice (log 11). -/
def Obligations.BootReachesTheInitialState : Prop :=
  ∀ (c : Configuration) (h : HalInput) (m : Memory), c.valid = true → c.loopPc = 7#5 → h.initDraw = .ok →
    runSteps 7 (startOf c h m) = .next { startOf c h m with
      pc := 7#5, hal := .ready, ctl := ctlAllIdle, busDir := .output, trace := bootEvents c, halIn := h.afterInit } ∧
    halEventCount (bootEvents c) = 27

/-- R197, R220: if `HAL.init()` fails, the run ends at once with exit code 1, the diagnostic, no pair and no other event. -/
def Obligations.InitFailureEndsTheRun : Prop :=
  ∀ (c : Configuration) (h : HalInput) (m : Memory) (n : Nat), c.valid = true → c.loopPc = 7#5 → h.initDraw = .fail →
    runSteps (n + 1) (startOf c h m) = .next { startOf c h m with
      status := .halted 1#8, trace := [.init .fail, .diag], halIn := h.afterInit }

/-- R175: one read cycle, its 82 events and its end state, from every state a read cycle can start in. -/
def Obligations.ReadCycleRunsToItsEnd : Prop :=
  ∀ s : State, CycleStart s →
    runSteps 12 s = .next { s with
      pc := if s.cfg.bankSize.toNat ≤ s.addr.toNat + 2 then 19#5 else 7#5
      addr := s.addr + 2#25
      word := sumWord (cycleLevel s)
      wvalid := false
      busOut := Vector.replicate 16 .unknown
      devA := { low := some (s.addr.setWidth 16), high := some (s.addr.extractLsb' 16 8) }
      out := s.out ++ [(s.addr.setWidth 24, sumWord (cycleLevel s))]
      trace := s.trace ++ cycleEvents s.cfg s.addr (cycleLevel s)
      halIn := s.halIn.afterLevels 16 }

/-- R176, R272: the counts of one read cycle's events, and the least time it waits. -/
def Obligations.ReadCycleEventCounts : Prop :=
  ∀ (c : Configuration) (a : Addr) (v : Nat → Level),
    halEventCount (cycleEvents c a v) = 81 ∧ (cycleEvents c a v).length = 82 ∧
    (∀ k, k < 48 → ∀ l u, (cycleEvents c a v)[k]? ≠ some (.sample l u)) ∧
    (∀ i, i < 16 → (cycleEvents c a v)[48 + i]? = some (.sample (c.busBase + i) (v i))) ∧
    (cycleEvents c a v).getLast? = some (.out (a.setWidth 24) (sumWord v)) ∧
    waitedMicros (cycleEvents c a v) = 2 * c.latchHoldUs + c.strobeSettleUs

/-- Every step keeps the invariant of the canonical micro-ROM. -/
def Obligations.StepKeepsCanonicalInv : Prop :=
  ∀ s t : State, CanonicalInv s → step s = .next t → CanonicalInv t

/-- The invariant of the canonical micro-ROM holds at power-on reset in every valid configuration with `LOOP_PC` 7, so at
`State.reset`. -/
def Obligations.ResetHasCanonicalInv : Prop :=
  (∀ (c : Configuration) (h : HalInput) (m : Memory), c.valid = true → c.loopPc = 7#5 → CanonicalInv (startOf c h m)) ∧
  CanonicalInv State.reset

/-- R221, R200: in a run of the canonical micro-ROM from power-on reset with a valid configuration no model fault is
reachable and no step is refused. -/
def Obligations.CanonicalRunNeverFaults : Prop :=
  ∀ (c : Configuration) (h : HalInput) (m : Memory) (n : Nat), c.valid = true → c.loopPc = 7#5 →
    ∃ t, runSteps n (startOf c h m) = .next t ∧ ∀ f, t.status ≠ .faulted f

/-- R165, R68, R62: at every point of every canonical run the emitted addresses are even, inside the bank and strictly
increasing. -/
def Obligations.EmittedAddressesStrictlyIncrease : Prop :=
  ∀ (c : Configuration) (h : HalInput) (m : Memory) (n : Nat) (t : State), c.valid = true → c.loopPc = 7#5 →
    runSteps n (startOf c h m) = .next t →
    (t.out.map fun p => p.1.toNat).Pairwise (· < ·) ∧
    ∀ p ∈ t.out, p.1.toNat % 2 = 0 ∧ p.1.toNat < c.bankSize.toNat

/-- R200, R172: a canonical run whose `HAL.init()` succeeds ends with exit code 0 after N = BANK_SIZE / 2 read cycles, with
exactly the trace and the pairs the rule gives. -/
def Obligations.WholeRunReadsTheBank : Prop :=
  ∀ (c : Configuration) (h : HalInput) (m : Memory) (N : Nat), c.valid = true → c.loopPc = 7#5 → h.initDraw = .ok →
    c.bankSize.toNat = 2 * N →
    ∃ t, runSteps (12 * N + 9) (startOf c h m) = .next t ∧
      t.status = .halted 0#8 ∧ t.pc = 20#5 ∧ t.addr = c.bankSize ∧ t.hal = .shut ∧ t.busDir = .output ∧
      t.ctl = ctlAllIdle ∧ t.wvalid = false ∧
      t.trace = bootEvents c
        ++ (List.range N).flatMap (fun k => cycleEvents c (BitVec.ofNat 25 (2 * k)) (runLevel h.afterInit m k))
        ++ [.shutdown] ∧
      t.out = (List.range N).map (fun k => (BitVec.ofNat 24 (2 * k), sumWord (runLevel h.afterInit m k))) ∧
      halEventCount t.trace = 28 + 81 * N ∧
      waitedMicros t.trace = N * (2 * c.latchHoldUs + c.strobeSettleUs)

/-- R72, R200: with an ideal device whose content lists every word of the bank, the run emits that content. -/
def Obligations.IdealDeviceRunEmitsItsContent : Prop :=
  ∀ (c : Configuration) (h : HalInput) (m : Memory) (N : Nat) (content : Nat → BusWord),
    c.valid = true → c.loopPc = 7#5 → h.initDraw = .ok → c.bankSize.toNat = 2 * N →
    (∀ k, k < N → m.read (2 * k) = some (content k)) →
    ∃ t, runSteps (12 * N + 9) (startOf c h m) = .next t ∧ t.status = .halted 0#8 ∧
      t.out = (List.range N).map fun k => (BitVec.ofNat 24 (2 * k), content k)

/-! ### The produced text -/

/-- R198: the line of a pair, character by character, and one line for each pair in order. -/
def Obligations.OutputLineHasTheLiteralForm : Prop :=
  (∀ (c : HexCase) (a : BusAddr) (w : BusWord), ∃ d : Nat → Char,
    (∀ n, n < 16 → d n = (match c with
      | .upper => ['0', '1', '2', '3', '4', '5', '6', '7', '8', '9', 'A', 'B', 'C', 'D', 'E', 'F']
      | .lower => ['0', '1', '2', '3', '4', '5', '6', '7', '8', '9', 'a', 'b', 'c', 'd', 'e', 'f'])[n]?.getD ' ') ∧
    (outputLine c a w).toList =
      ['0', 'x', d (a.toNat / 2 ^ 20), d (a.toNat / 2 ^ 16 % 16), d (a.toNat / 2 ^ 12 % 16), d (a.toNat / 2 ^ 8 % 16),
        d (a.toNat / 2 ^ 4 % 16), d (a.toNat % 16), ':', ' ', '0', 'x', d (w.toNat / 2 ^ 12), d (w.toNat / 2 ^ 8 % 16),
        d (w.toNat / 2 ^ 4 % 16), d (w.toNat % 16), '\n']) ∧
  ∀ s : State, s.outputLines = s.out.map fun p => outputLine Config.hexCase p.1 p.2
end

