-- ==== Sys2Proof/Laws/State.lean ====
section
/-! SUPPORT. One lemma per field per update of the state, so that no proof unfolds a record update. -/

namespace Sys2Proof.Machine

open Sys2Proof

/-! ### takeFault -/

@[simp] theorem State.takeFault_pc (s : State) (f : ModelFault) : (s.takeFault f).pc = s.pc := rfl
@[simp] theorem State.takeFault_addr (s : State) (f : ModelFault) : (s.takeFault f).addr = s.addr := rfl
@[simp] theorem State.takeFault_word (s : State) (f : ModelFault) : (s.takeFault f).word = s.word := rfl
@[simp] theorem State.takeFault_wvalid (s : State) (f : ModelFault) : (s.takeFault f).wvalid = s.wvalid := rfl
@[simp] theorem State.takeFault_busDir (s : State) (f : ModelFault) : (s.takeFault f).busDir = s.busDir := rfl
@[simp] theorem State.takeFault_busOut (s : State) (f : ModelFault) : (s.takeFault f).busOut = s.busOut := rfl
@[simp] theorem State.takeFault_ctl (s : State) (f : ModelFault) : (s.takeFault f).ctl = s.ctl := rfl
@[simp] theorem State.takeFault_hal (s : State) (f : ModelFault) : (s.takeFault f).hal = s.hal := rfl
@[simp] theorem State.takeFault_status (s : State) (f : ModelFault) : (s.takeFault f).status = .faulted f := rfl
@[simp] theorem State.takeFault_out (s : State) (f : ModelFault) : (s.takeFault f).out = s.out := rfl
@[simp] theorem State.takeFault_devA (s : State) (f : ModelFault) : (s.takeFault f).devA = s.devA := rfl
@[simp] theorem State.takeFault_trace (s : State) (f : ModelFault) : (s.takeFault f).trace = s.trace := rfl
@[simp] theorem State.takeFault_cfg (s : State) (f : ModelFault) : (s.takeFault f).cfg = s.cfg := rfl
@[simp] theorem State.takeFault_microRom (s : State) (f : ModelFault) : (s.takeFault f).microRom = s.microRom := rfl
@[simp] theorem State.takeFault_deviceRom (s : State) (f : ModelFault) : (s.takeFault f).deviceRom = s.deviceRom := rfl
@[simp] theorem State.takeFault_halIn (s : State) (f : ModelFault) : (s.takeFault f).halIn = s.halIn := rfl

/-! ### nextPc -/

@[simp] theorem State.nextPc_pc (s : State) : s.nextPc.pc = s.pc + 1#5 := rfl
@[simp] theorem State.nextPc_addr (s : State) : s.nextPc.addr = s.addr := rfl
@[simp] theorem State.nextPc_word (s : State) : s.nextPc.word = s.word := rfl
@[simp] theorem State.nextPc_wvalid (s : State) : s.nextPc.wvalid = s.wvalid := rfl
@[simp] theorem State.nextPc_busDir (s : State) : s.nextPc.busDir = s.busDir := rfl
@[simp] theorem State.nextPc_busOut (s : State) : s.nextPc.busOut = s.busOut := rfl
@[simp] theorem State.nextPc_ctl (s : State) : s.nextPc.ctl = s.ctl := rfl
@[simp] theorem State.nextPc_hal (s : State) : s.nextPc.hal = s.hal := rfl
@[simp] theorem State.nextPc_status (s : State) : s.nextPc.status = s.status := rfl
@[simp] theorem State.nextPc_out (s : State) : s.nextPc.out = s.out := rfl
@[simp] theorem State.nextPc_devA (s : State) : s.nextPc.devA = s.devA := rfl
@[simp] theorem State.nextPc_trace (s : State) : s.nextPc.trace = s.trace := rfl
@[simp] theorem State.nextPc_cfg (s : State) : s.nextPc.cfg = s.cfg := rfl
@[simp] theorem State.nextPc_microRom (s : State) : s.nextPc.microRom = s.microRom := rfl
@[simp] theorem State.nextPc_deviceRom (s : State) : s.nextPc.deviceRom = s.deviceRom := rfl
@[simp] theorem State.nextPc_halIn (s : State) : s.nextPc.halIn = s.halIn := rfl

/-! ### jump -/

@[simp] theorem State.jump_pc (s : State) (p : MicroPc) : (s.jump p).pc = p := rfl
@[simp] theorem State.jump_addr (s : State) (p : MicroPc) : (s.jump p).addr = s.addr := rfl
@[simp] theorem State.jump_word (s : State) (p : MicroPc) : (s.jump p).word = s.word := rfl
@[simp] theorem State.jump_wvalid (s : State) (p : MicroPc) : (s.jump p).wvalid = s.wvalid := rfl
@[simp] theorem State.jump_busDir (s : State) (p : MicroPc) : (s.jump p).busDir = s.busDir := rfl
@[simp] theorem State.jump_busOut (s : State) (p : MicroPc) : (s.jump p).busOut = s.busOut := rfl
@[simp] theorem State.jump_ctl (s : State) (p : MicroPc) : (s.jump p).ctl = s.ctl := rfl
@[simp] theorem State.jump_hal (s : State) (p : MicroPc) : (s.jump p).hal = s.hal := rfl
@[simp] theorem State.jump_status (s : State) (p : MicroPc) : (s.jump p).status = s.status := rfl
@[simp] theorem State.jump_out (s : State) (p : MicroPc) : (s.jump p).out = s.out := rfl
@[simp] theorem State.jump_devA (s : State) (p : MicroPc) : (s.jump p).devA = s.devA := rfl
@[simp] theorem State.jump_trace (s : State) (p : MicroPc) : (s.jump p).trace = s.trace := rfl
@[simp] theorem State.jump_cfg (s : State) (p : MicroPc) : (s.jump p).cfg = s.cfg := rfl
@[simp] theorem State.jump_microRom (s : State) (p : MicroPc) : (s.jump p).microRom = s.microRom := rfl
@[simp] theorem State.jump_deviceRom (s : State) (p : MicroPc) : (s.jump p).deviceRom = s.deviceRom := rfl
@[simp] theorem State.jump_halIn (s : State) (p : MicroPc) : (s.jump p).halIn = s.halIn := rfl

/-! ### bumpAddr -/

@[simp] theorem State.bumpAddr_pc (s : State) : s.bumpAddr.pc = s.pc := rfl
@[simp] theorem State.bumpAddr_addr (s : State) : s.bumpAddr.addr = s.addr + 2#25 := rfl
@[simp] theorem State.bumpAddr_word (s : State) : s.bumpAddr.word = s.word := rfl
@[simp] theorem State.bumpAddr_wvalid (s : State) : s.bumpAddr.wvalid = false := rfl
@[simp] theorem State.bumpAddr_busDir (s : State) : s.bumpAddr.busDir = s.busDir := rfl
@[simp] theorem State.bumpAddr_busOut (s : State) : s.bumpAddr.busOut = s.busOut := rfl
@[simp] theorem State.bumpAddr_ctl (s : State) : s.bumpAddr.ctl = s.ctl := rfl
@[simp] theorem State.bumpAddr_hal (s : State) : s.bumpAddr.hal = s.hal := rfl
@[simp] theorem State.bumpAddr_status (s : State) : s.bumpAddr.status = s.status := rfl
@[simp] theorem State.bumpAddr_out (s : State) : s.bumpAddr.out = s.out := rfl
@[simp] theorem State.bumpAddr_devA (s : State) : s.bumpAddr.devA = s.devA := rfl
@[simp] theorem State.bumpAddr_trace (s : State) : s.bumpAddr.trace = s.trace := rfl
@[simp] theorem State.bumpAddr_cfg (s : State) : s.bumpAddr.cfg = s.cfg := rfl
@[simp] theorem State.bumpAddr_microRom (s : State) : s.bumpAddr.microRom = s.microRom := rfl
@[simp] theorem State.bumpAddr_deviceRom (s : State) : s.bumpAddr.deviceRom = s.deviceRom := rfl
@[simp] theorem State.bumpAddr_halIn (s : State) : s.bumpAddr.halIn = s.halIn := rfl

/-! ### setWord -/

@[simp] theorem State.setWord_pc (s : State) (w : BusWord) : (s.setWord w).pc = s.pc := rfl
@[simp] theorem State.setWord_addr (s : State) (w : BusWord) : (s.setWord w).addr = s.addr := rfl
@[simp] theorem State.setWord_word (s : State) (w : BusWord) : (s.setWord w).word = w := rfl
@[simp] theorem State.setWord_wvalid (s : State) (w : BusWord) : (s.setWord w).wvalid = true := rfl
@[simp] theorem State.setWord_busDir (s : State) (w : BusWord) : (s.setWord w).busDir = s.busDir := rfl
@[simp] theorem State.setWord_busOut (s : State) (w : BusWord) : (s.setWord w).busOut = s.busOut := rfl
@[simp] theorem State.setWord_ctl (s : State) (w : BusWord) : (s.setWord w).ctl = s.ctl := rfl
@[simp] theorem State.setWord_hal (s : State) (w : BusWord) : (s.setWord w).hal = s.hal := rfl
@[simp] theorem State.setWord_status (s : State) (w : BusWord) : (s.setWord w).status = s.status := rfl
@[simp] theorem State.setWord_out (s : State) (w : BusWord) : (s.setWord w).out = s.out := rfl
@[simp] theorem State.setWord_devA (s : State) (w : BusWord) : (s.setWord w).devA = s.devA := rfl
@[simp] theorem State.setWord_trace (s : State) (w : BusWord) : (s.setWord w).trace = s.trace := rfl
@[simp] theorem State.setWord_cfg (s : State) (w : BusWord) : (s.setWord w).cfg = s.cfg := rfl
@[simp] theorem State.setWord_microRom (s : State) (w : BusWord) : (s.setWord w).microRom = s.microRom := rfl
@[simp] theorem State.setWord_deviceRom (s : State) (w : BusWord) : (s.setWord w).deviceRom = s.deviceRom := rfl
@[simp] theorem State.setWord_halIn (s : State) (w : BusWord) : (s.setWord w).halIn = s.halIn := rfl

/-! ### setDirection -/

@[simp] theorem State.setDirection_pc (s : State) (d : Direction) : (s.setDirection d).pc = s.pc := rfl
@[simp] theorem State.setDirection_addr (s : State) (d : Direction) : (s.setDirection d).addr = s.addr := rfl
@[simp] theorem State.setDirection_word (s : State) (d : Direction) : (s.setDirection d).word = s.word := rfl
@[simp] theorem State.setDirection_wvalid (s : State) (d : Direction) : (s.setDirection d).wvalid = s.wvalid := rfl
@[simp] theorem State.setDirection_busDir (s : State) (d : Direction) : (s.setDirection d).busDir = BusDir.ofDirection d := rfl
@[simp] theorem State.setDirection_busOut (s : State) (d : Direction) : (s.setDirection d).busOut = busAllUnknown := rfl
@[simp] theorem State.setDirection_ctl (s : State) (d : Direction) : (s.setDirection d).ctl = s.ctl := rfl
@[simp] theorem State.setDirection_hal (s : State) (d : Direction) : (s.setDirection d).hal = s.hal := rfl
@[simp] theorem State.setDirection_status (s : State) (d : Direction) : (s.setDirection d).status = s.status := rfl
@[simp] theorem State.setDirection_out (s : State) (d : Direction) : (s.setDirection d).out = s.out := rfl
@[simp] theorem State.setDirection_devA (s : State) (d : Direction) : (s.setDirection d).devA = s.devA := rfl
@[simp] theorem State.setDirection_trace (s : State) (d : Direction) : (s.setDirection d).trace = s.trace := rfl
@[simp] theorem State.setDirection_cfg (s : State) (d : Direction) : (s.setDirection d).cfg = s.cfg := rfl
@[simp] theorem State.setDirection_microRom (s : State) (d : Direction) : (s.setDirection d).microRom = s.microRom := rfl
@[simp] theorem State.setDirection_deviceRom (s : State) (d : Direction) : (s.setDirection d).deviceRom = s.deviceRom := rfl
@[simp] theorem State.setDirection_halIn (s : State) (d : Direction) : (s.setDirection d).halIn = s.halIn := rfl

/-! ### setBusOut -/

@[simp] theorem State.setBusOut_pc (s : State) (b : Vector Recorded busWidth) : (s.setBusOut b).pc = s.pc := rfl
@[simp] theorem State.setBusOut_addr (s : State) (b : Vector Recorded busWidth) : (s.setBusOut b).addr = s.addr := rfl
@[simp] theorem State.setBusOut_word (s : State) (b : Vector Recorded busWidth) : (s.setBusOut b).word = s.word := rfl
@[simp] theorem State.setBusOut_wvalid (s : State) (b : Vector Recorded busWidth) : (s.setBusOut b).wvalid = s.wvalid := rfl
@[simp] theorem State.setBusOut_busDir (s : State) (b : Vector Recorded busWidth) : (s.setBusOut b).busDir = s.busDir := rfl
@[simp] theorem State.setBusOut_busOut (s : State) (b : Vector Recorded busWidth) : (s.setBusOut b).busOut = b := rfl
@[simp] theorem State.setBusOut_ctl (s : State) (b : Vector Recorded busWidth) : (s.setBusOut b).ctl = s.ctl := rfl
@[simp] theorem State.setBusOut_hal (s : State) (b : Vector Recorded busWidth) : (s.setBusOut b).hal = s.hal := rfl
@[simp] theorem State.setBusOut_status (s : State) (b : Vector Recorded busWidth) : (s.setBusOut b).status = s.status := rfl
@[simp] theorem State.setBusOut_out (s : State) (b : Vector Recorded busWidth) : (s.setBusOut b).out = s.out := rfl
@[simp] theorem State.setBusOut_devA (s : State) (b : Vector Recorded busWidth) : (s.setBusOut b).devA = s.devA := rfl
@[simp] theorem State.setBusOut_trace (s : State) (b : Vector Recorded busWidth) : (s.setBusOut b).trace = s.trace := rfl
@[simp] theorem State.setBusOut_cfg (s : State) (b : Vector Recorded busWidth) : (s.setBusOut b).cfg = s.cfg := rfl
@[simp] theorem State.setBusOut_microRom (s : State) (b : Vector Recorded busWidth) : (s.setBusOut b).microRom = s.microRom := rfl
@[simp] theorem State.setBusOut_deviceRom (s : State) (b : Vector Recorded busWidth) : (s.setBusOut b).deviceRom = s.deviceRom := rfl
@[simp] theorem State.setBusOut_halIn (s : State) (b : Vector Recorded busWidth) : (s.setBusOut b).halIn = s.halIn := rfl

/-! ### setCtl -/

@[simp] theorem State.setCtl_pc (s : State) (g : Signal) (v : Level) : (s.setCtl g v).pc = s.pc := rfl
@[simp] theorem State.setCtl_addr (s : State) (g : Signal) (v : Level) : (s.setCtl g v).addr = s.addr := rfl
@[simp] theorem State.setCtl_word (s : State) (g : Signal) (v : Level) : (s.setCtl g v).word = s.word := rfl
@[simp] theorem State.setCtl_wvalid (s : State) (g : Signal) (v : Level) : (s.setCtl g v).wvalid = s.wvalid := rfl
@[simp] theorem State.setCtl_busDir (s : State) (g : Signal) (v : Level) : (s.setCtl g v).busDir = s.busDir := rfl
@[simp] theorem State.setCtl_busOut (s : State) (g : Signal) (v : Level) : (s.setCtl g v).busOut = s.busOut := rfl
@[simp] theorem State.setCtl_ctl (s : State) (g : Signal) (v : Level) : (s.setCtl g v).ctl = s.ctl.set g (.known v) := rfl
@[simp] theorem State.setCtl_hal (s : State) (g : Signal) (v : Level) : (s.setCtl g v).hal = s.hal := rfl
@[simp] theorem State.setCtl_status (s : State) (g : Signal) (v : Level) : (s.setCtl g v).status = s.status := rfl
@[simp] theorem State.setCtl_out (s : State) (g : Signal) (v : Level) : (s.setCtl g v).out = s.out := rfl
@[simp] theorem State.setCtl_devA (s : State) (g : Signal) (v : Level) : (s.setCtl g v).devA = s.devA := rfl
@[simp] theorem State.setCtl_trace (s : State) (g : Signal) (v : Level) : (s.setCtl g v).trace = s.trace := rfl
@[simp] theorem State.setCtl_cfg (s : State) (g : Signal) (v : Level) : (s.setCtl g v).cfg = s.cfg := rfl
@[simp] theorem State.setCtl_microRom (s : State) (g : Signal) (v : Level) : (s.setCtl g v).microRom = s.microRom := rfl
@[simp] theorem State.setCtl_deviceRom (s : State) (g : Signal) (v : Level) : (s.setCtl g v).deviceRom = s.deviceRom := rfl
@[simp] theorem State.setCtl_halIn (s : State) (g : Signal) (v : Level) : (s.setCtl g v).halIn = s.halIn := rfl

/-! ### setHal -/

@[simp] theorem State.setHal_pc (s : State) (h : HalState) : (s.setHal h).pc = s.pc := rfl
@[simp] theorem State.setHal_addr (s : State) (h : HalState) : (s.setHal h).addr = s.addr := rfl
@[simp] theorem State.setHal_word (s : State) (h : HalState) : (s.setHal h).word = s.word := rfl
@[simp] theorem State.setHal_wvalid (s : State) (h : HalState) : (s.setHal h).wvalid = s.wvalid := rfl
@[simp] theorem State.setHal_busDir (s : State) (h : HalState) : (s.setHal h).busDir = s.busDir := rfl
@[simp] theorem State.setHal_busOut (s : State) (h : HalState) : (s.setHal h).busOut = s.busOut := rfl
@[simp] theorem State.setHal_ctl (s : State) (h : HalState) : (s.setHal h).ctl = s.ctl := rfl
@[simp] theorem State.setHal_hal (s : State) (h : HalState) : (s.setHal h).hal = h := rfl
@[simp] theorem State.setHal_status (s : State) (h : HalState) : (s.setHal h).status = s.status := rfl
@[simp] theorem State.setHal_out (s : State) (h : HalState) : (s.setHal h).out = s.out := rfl
@[simp] theorem State.setHal_devA (s : State) (h : HalState) : (s.setHal h).devA = s.devA := rfl
@[simp] theorem State.setHal_trace (s : State) (h : HalState) : (s.setHal h).trace = s.trace := rfl
@[simp] theorem State.setHal_cfg (s : State) (h : HalState) : (s.setHal h).cfg = s.cfg := rfl
@[simp] theorem State.setHal_microRom (s : State) (h : HalState) : (s.setHal h).microRom = s.microRom := rfl
@[simp] theorem State.setHal_deviceRom (s : State) (h : HalState) : (s.setHal h).deviceRom = s.deviceRom := rfl
@[simp] theorem State.setHal_halIn (s : State) (h : HalState) : (s.setHal h).halIn = s.halIn := rfl

/-! ### haltWith -/

@[simp] theorem State.haltWith_pc (s : State) (c : BitVec 8) : (s.haltWith c).pc = s.pc := rfl
@[simp] theorem State.haltWith_addr (s : State) (c : BitVec 8) : (s.haltWith c).addr = s.addr := rfl
@[simp] theorem State.haltWith_word (s : State) (c : BitVec 8) : (s.haltWith c).word = s.word := rfl
@[simp] theorem State.haltWith_wvalid (s : State) (c : BitVec 8) : (s.haltWith c).wvalid = s.wvalid := rfl
@[simp] theorem State.haltWith_busDir (s : State) (c : BitVec 8) : (s.haltWith c).busDir = s.busDir := rfl
@[simp] theorem State.haltWith_busOut (s : State) (c : BitVec 8) : (s.haltWith c).busOut = s.busOut := rfl
@[simp] theorem State.haltWith_ctl (s : State) (c : BitVec 8) : (s.haltWith c).ctl = s.ctl := rfl
@[simp] theorem State.haltWith_hal (s : State) (c : BitVec 8) : (s.haltWith c).hal = s.hal := rfl
@[simp] theorem State.haltWith_status (s : State) (c : BitVec 8) : (s.haltWith c).status = .halted c := rfl
@[simp] theorem State.haltWith_out (s : State) (c : BitVec 8) : (s.haltWith c).out = s.out := rfl
@[simp] theorem State.haltWith_devA (s : State) (c : BitVec 8) : (s.haltWith c).devA = s.devA := rfl
@[simp] theorem State.haltWith_trace (s : State) (c : BitVec 8) : (s.haltWith c).trace = s.trace := rfl
@[simp] theorem State.haltWith_cfg (s : State) (c : BitVec 8) : (s.haltWith c).cfg = s.cfg := rfl
@[simp] theorem State.haltWith_microRom (s : State) (c : BitVec 8) : (s.haltWith c).microRom = s.microRom := rfl
@[simp] theorem State.haltWith_deviceRom (s : State) (c : BitVec 8) : (s.haltWith c).deviceRom = s.deviceRom := rfl
@[simp] theorem State.haltWith_halIn (s : State) (c : BitVec 8) : (s.haltWith c).halIn = s.halIn := rfl

/-! ### record -/

@[simp] theorem State.record_pc (s : State) (es : List Event) : (s.record es).pc = s.pc := rfl
@[simp] theorem State.record_addr (s : State) (es : List Event) : (s.record es).addr = s.addr := rfl
@[simp] theorem State.record_word (s : State) (es : List Event) : (s.record es).word = s.word := rfl
@[simp] theorem State.record_wvalid (s : State) (es : List Event) : (s.record es).wvalid = s.wvalid := rfl
@[simp] theorem State.record_busDir (s : State) (es : List Event) : (s.record es).busDir = s.busDir := rfl
@[simp] theorem State.record_busOut (s : State) (es : List Event) : (s.record es).busOut = s.busOut := rfl
@[simp] theorem State.record_ctl (s : State) (es : List Event) : (s.record es).ctl = s.ctl := rfl
@[simp] theorem State.record_hal (s : State) (es : List Event) : (s.record es).hal = s.hal := rfl
@[simp] theorem State.record_status (s : State) (es : List Event) : (s.record es).status = s.status := rfl
@[simp] theorem State.record_out (s : State) (es : List Event) : (s.record es).out = s.out := rfl
@[simp] theorem State.record_devA (s : State) (es : List Event) : (s.record es).devA = s.devA := rfl
@[simp] theorem State.record_trace (s : State) (es : List Event) : (s.record es).trace = s.trace ++ es := rfl
@[simp] theorem State.record_cfg (s : State) (es : List Event) : (s.record es).cfg = s.cfg := rfl
@[simp] theorem State.record_microRom (s : State) (es : List Event) : (s.record es).microRom = s.microRom := rfl
@[simp] theorem State.record_deviceRom (s : State) (es : List Event) : (s.record es).deviceRom = s.deviceRom := rfl
@[simp] theorem State.record_halIn (s : State) (es : List Event) : (s.record es).halIn = s.halIn := rfl

/-! ### emitPair -/

@[simp] theorem State.emitPair_pc (s : State) (a : BusAddr) (w : BusWord) : (s.emitPair a w).pc = s.pc := rfl
@[simp] theorem State.emitPair_addr (s : State) (a : BusAddr) (w : BusWord) : (s.emitPair a w).addr = s.addr := rfl
@[simp] theorem State.emitPair_word (s : State) (a : BusAddr) (w : BusWord) : (s.emitPair a w).word = s.word := rfl
@[simp] theorem State.emitPair_wvalid (s : State) (a : BusAddr) (w : BusWord) : (s.emitPair a w).wvalid = s.wvalid := rfl
@[simp] theorem State.emitPair_busDir (s : State) (a : BusAddr) (w : BusWord) : (s.emitPair a w).busDir = s.busDir := rfl
@[simp] theorem State.emitPair_busOut (s : State) (a : BusAddr) (w : BusWord) : (s.emitPair a w).busOut = s.busOut := rfl
@[simp] theorem State.emitPair_ctl (s : State) (a : BusAddr) (w : BusWord) : (s.emitPair a w).ctl = s.ctl := rfl
@[simp] theorem State.emitPair_hal (s : State) (a : BusAddr) (w : BusWord) : (s.emitPair a w).hal = s.hal := rfl
@[simp] theorem State.emitPair_status (s : State) (a : BusAddr) (w : BusWord) : (s.emitPair a w).status = s.status := rfl
@[simp] theorem State.emitPair_out (s : State) (a : BusAddr) (w : BusWord) : (s.emitPair a w).out = s.out ++ [(a, w)] := rfl
@[simp] theorem State.emitPair_devA (s : State) (a : BusAddr) (w : BusWord) : (s.emitPair a w).devA = s.devA := rfl
@[simp] theorem State.emitPair_trace (s : State) (a : BusAddr) (w : BusWord) : (s.emitPair a w).trace = s.trace ++ [.out a w] := rfl
@[simp] theorem State.emitPair_cfg (s : State) (a : BusAddr) (w : BusWord) : (s.emitPair a w).cfg = s.cfg := rfl
@[simp] theorem State.emitPair_microRom (s : State) (a : BusAddr) (w : BusWord) : (s.emitPair a w).microRom = s.microRom := rfl
@[simp] theorem State.emitPair_deviceRom (s : State) (a : BusAddr) (w : BusWord) : (s.emitPair a w).deviceRom = s.deviceRom := rfl
@[simp] theorem State.emitPair_halIn (s : State) (a : BusAddr) (w : BusWord) : (s.emitPair a w).halIn = s.halIn := rfl

/-! ### halSampleBus -/

@[simp] theorem State.halSampleBus_pc (s : State) : s.halSampleBus.pc = s.pc := rfl
@[simp] theorem State.halSampleBus_addr (s : State) : s.halSampleBus.addr = s.addr := rfl
@[simp] theorem State.halSampleBus_word (s : State) : s.halSampleBus.word = s.word := rfl
@[simp] theorem State.halSampleBus_wvalid (s : State) : s.halSampleBus.wvalid = s.wvalid := rfl
@[simp] theorem State.halSampleBus_busDir (s : State) : s.halSampleBus.busDir = s.busDir := rfl
@[simp] theorem State.halSampleBus_busOut (s : State) : s.halSampleBus.busOut = s.busOut := rfl
@[simp] theorem State.halSampleBus_ctl (s : State) : s.halSampleBus.ctl = s.ctl := rfl
@[simp] theorem State.halSampleBus_hal (s : State) : s.halSampleBus.hal = s.hal := rfl
@[simp] theorem State.halSampleBus_status (s : State) : s.halSampleBus.status = s.status := rfl
@[simp] theorem State.halSampleBus_out (s : State) : s.halSampleBus.out = s.out := rfl
@[simp] theorem State.halSampleBus_devA (s : State) : s.halSampleBus.devA = s.devA := rfl
@[simp] theorem State.halSampleBus_trace (s : State) : s.halSampleBus.trace = s.trace ++ (List.range busWidth).map fun i => .sample (s.cfg.busLine i) (s.lineLevel i) := rfl
@[simp] theorem State.halSampleBus_cfg (s : State) : s.halSampleBus.cfg = s.cfg := rfl
@[simp] theorem State.halSampleBus_microRom (s : State) : s.halSampleBus.microRom = s.microRom := rfl
@[simp] theorem State.halSampleBus_deviceRom (s : State) : s.halSampleBus.deviceRom = s.deviceRom := rfl
@[simp] theorem State.halSampleBus_halIn (s : State) : s.halSampleBus.halIn = s.halIn.afterLevels busWidth := rfl

/-! ### halInit -/

@[simp] theorem State.halInit_pc (s : State) : s.halInit.pc = s.pc := rfl
@[simp] theorem State.halInit_addr (s : State) : s.halInit.addr = s.addr := rfl
@[simp] theorem State.halInit_word (s : State) : s.halInit.word = s.word := rfl
@[simp] theorem State.halInit_wvalid (s : State) : s.halInit.wvalid = s.wvalid := rfl
@[simp] theorem State.halInit_busDir (s : State) : s.halInit.busDir = s.busDir := rfl
@[simp] theorem State.halInit_busOut (s : State) : s.halInit.busOut = s.busOut := rfl
@[simp] theorem State.halInit_ctl (s : State) : s.halInit.ctl = s.ctl := rfl
@[simp] theorem State.halInit_hal (s : State) : s.halInit.hal = s.hal := rfl
@[simp] theorem State.halInit_status (s : State) : s.halInit.status = s.status := rfl
@[simp] theorem State.halInit_out (s : State) : s.halInit.out = s.out := rfl
@[simp] theorem State.halInit_devA (s : State) : s.halInit.devA = s.devA := rfl
@[simp] theorem State.halInit_trace (s : State) : s.halInit.trace = s.trace ++ [.init s.halIn.initDraw] := rfl
@[simp] theorem State.halInit_cfg (s : State) : s.halInit.cfg = s.cfg := rfl
@[simp] theorem State.halInit_microRom (s : State) : s.halInit.microRom = s.microRom := rfl
@[simp] theorem State.halInit_deviceRom (s : State) : s.halInit.deviceRom = s.deviceRom := rfl
@[simp] theorem State.halInit_halIn (s : State) : s.halInit.halIn = s.halIn.afterInit := rfl

/-! ### halCfg -/

@[simp] theorem State.halCfg_pc (s : State) (l : Line) (d : Direction) : (s.halCfg l d).pc = s.pc := rfl
@[simp] theorem State.halCfg_addr (s : State) (l : Line) (d : Direction) : (s.halCfg l d).addr = s.addr := rfl
@[simp] theorem State.halCfg_word (s : State) (l : Line) (d : Direction) : (s.halCfg l d).word = s.word := rfl
@[simp] theorem State.halCfg_wvalid (s : State) (l : Line) (d : Direction) : (s.halCfg l d).wvalid = s.wvalid := rfl
@[simp] theorem State.halCfg_busDir (s : State) (l : Line) (d : Direction) : (s.halCfg l d).busDir = s.busDir := rfl
@[simp] theorem State.halCfg_busOut (s : State) (l : Line) (d : Direction) : (s.halCfg l d).busOut = s.busOut := rfl
@[simp] theorem State.halCfg_ctl (s : State) (l : Line) (d : Direction) : (s.halCfg l d).ctl = s.ctl := rfl
@[simp] theorem State.halCfg_hal (s : State) (l : Line) (d : Direction) : (s.halCfg l d).hal = s.hal := rfl
@[simp] theorem State.halCfg_status (s : State) (l : Line) (d : Direction) : (s.halCfg l d).status = s.status := rfl
@[simp] theorem State.halCfg_out (s : State) (l : Line) (d : Direction) : (s.halCfg l d).out = s.out := rfl
@[simp] theorem State.halCfg_devA (s : State) (l : Line) (d : Direction) : (s.halCfg l d).devA = s.devA := rfl
@[simp] theorem State.halCfg_trace (s : State) (l : Line) (d : Direction) : (s.halCfg l d).trace = s.trace ++ [.cfg l d] := rfl
@[simp] theorem State.halCfg_cfg (s : State) (l : Line) (d : Direction) : (s.halCfg l d).cfg = s.cfg := rfl
@[simp] theorem State.halCfg_microRom (s : State) (l : Line) (d : Direction) : (s.halCfg l d).microRom = s.microRom := rfl
@[simp] theorem State.halCfg_deviceRom (s : State) (l : Line) (d : Direction) : (s.halCfg l d).deviceRom = s.deviceRom := rfl
@[simp] theorem State.halCfg_halIn (s : State) (l : Line) (d : Direction) : (s.halCfg l d).halIn = s.halIn := rfl

/-! ### halDrive -/

@[simp] theorem State.halDrive_pc (s : State) (l : Line) (v : Level) : (s.halDrive l v).pc = s.pc := rfl
@[simp] theorem State.halDrive_addr (s : State) (l : Line) (v : Level) : (s.halDrive l v).addr = s.addr := rfl
@[simp] theorem State.halDrive_word (s : State) (l : Line) (v : Level) : (s.halDrive l v).word = s.word := rfl
@[simp] theorem State.halDrive_wvalid (s : State) (l : Line) (v : Level) : (s.halDrive l v).wvalid = s.wvalid := rfl
@[simp] theorem State.halDrive_busDir (s : State) (l : Line) (v : Level) : (s.halDrive l v).busDir = s.busDir := rfl
@[simp] theorem State.halDrive_busOut (s : State) (l : Line) (v : Level) : (s.halDrive l v).busOut = s.busOut := rfl
@[simp] theorem State.halDrive_ctl (s : State) (l : Line) (v : Level) : (s.halDrive l v).ctl = s.ctl := rfl
@[simp] theorem State.halDrive_hal (s : State) (l : Line) (v : Level) : (s.halDrive l v).hal = s.hal := rfl
@[simp] theorem State.halDrive_status (s : State) (l : Line) (v : Level) : (s.halDrive l v).status = s.status := rfl
@[simp] theorem State.halDrive_out (s : State) (l : Line) (v : Level) : (s.halDrive l v).out = s.out := rfl
@[simp] theorem State.halDrive_devA (s : State) (l : Line) (v : Level) : (s.halDrive l v).devA = s.devA := rfl
@[simp] theorem State.halDrive_trace (s : State) (l : Line) (v : Level) : (s.halDrive l v).trace = s.trace ++ [.drive l v] := rfl
@[simp] theorem State.halDrive_cfg (s : State) (l : Line) (v : Level) : (s.halDrive l v).cfg = s.cfg := rfl
@[simp] theorem State.halDrive_microRom (s : State) (l : Line) (v : Level) : (s.halDrive l v).microRom = s.microRom := rfl
@[simp] theorem State.halDrive_deviceRom (s : State) (l : Line) (v : Level) : (s.halDrive l v).deviceRom = s.deviceRom := rfl
@[simp] theorem State.halDrive_halIn (s : State) (l : Line) (v : Level) : (s.halDrive l v).halIn = s.halIn := rfl

/-! ### halWait -/

@[simp] theorem State.halWait_pc (s : State) (n : Nat) : (s.halWait n).pc = s.pc := rfl
@[simp] theorem State.halWait_addr (s : State) (n : Nat) : (s.halWait n).addr = s.addr := rfl
@[simp] theorem State.halWait_word (s : State) (n : Nat) : (s.halWait n).word = s.word := rfl
@[simp] theorem State.halWait_wvalid (s : State) (n : Nat) : (s.halWait n).wvalid = s.wvalid := rfl
@[simp] theorem State.halWait_busDir (s : State) (n : Nat) : (s.halWait n).busDir = s.busDir := rfl
@[simp] theorem State.halWait_busOut (s : State) (n : Nat) : (s.halWait n).busOut = s.busOut := rfl
@[simp] theorem State.halWait_ctl (s : State) (n : Nat) : (s.halWait n).ctl = s.ctl := rfl
@[simp] theorem State.halWait_hal (s : State) (n : Nat) : (s.halWait n).hal = s.hal := rfl
@[simp] theorem State.halWait_status (s : State) (n : Nat) : (s.halWait n).status = s.status := rfl
@[simp] theorem State.halWait_out (s : State) (n : Nat) : (s.halWait n).out = s.out := rfl
@[simp] theorem State.halWait_devA (s : State) (n : Nat) : (s.halWait n).devA = s.devA := rfl
@[simp] theorem State.halWait_trace (s : State) (n : Nat) : (s.halWait n).trace = s.trace ++ [.wait n] := rfl
@[simp] theorem State.halWait_cfg (s : State) (n : Nat) : (s.halWait n).cfg = s.cfg := rfl
@[simp] theorem State.halWait_microRom (s : State) (n : Nat) : (s.halWait n).microRom = s.microRom := rfl
@[simp] theorem State.halWait_deviceRom (s : State) (n : Nat) : (s.halWait n).deviceRom = s.deviceRom := rfl
@[simp] theorem State.halWait_halIn (s : State) (n : Nat) : (s.halWait n).halIn = s.halIn := rfl

/-! ### halShutdown -/

@[simp] theorem State.halShutdown_pc (s : State) : s.halShutdown.pc = s.pc := rfl
@[simp] theorem State.halShutdown_addr (s : State) : s.halShutdown.addr = s.addr := rfl
@[simp] theorem State.halShutdown_word (s : State) : s.halShutdown.word = s.word := rfl
@[simp] theorem State.halShutdown_wvalid (s : State) : s.halShutdown.wvalid = s.wvalid := rfl
@[simp] theorem State.halShutdown_busDir (s : State) : s.halShutdown.busDir = s.busDir := rfl
@[simp] theorem State.halShutdown_busOut (s : State) : s.halShutdown.busOut = s.busOut := rfl
@[simp] theorem State.halShutdown_ctl (s : State) : s.halShutdown.ctl = s.ctl := rfl
@[simp] theorem State.halShutdown_hal (s : State) : s.halShutdown.hal = s.hal := rfl
@[simp] theorem State.halShutdown_status (s : State) : s.halShutdown.status = s.status := rfl
@[simp] theorem State.halShutdown_out (s : State) : s.halShutdown.out = s.out := rfl
@[simp] theorem State.halShutdown_devA (s : State) : s.halShutdown.devA = s.devA := rfl
@[simp] theorem State.halShutdown_trace (s : State) : s.halShutdown.trace = s.trace ++ [.shutdown] := rfl
@[simp] theorem State.halShutdown_cfg (s : State) : s.halShutdown.cfg = s.cfg := rfl
@[simp] theorem State.halShutdown_microRom (s : State) : s.halShutdown.microRom = s.microRom := rfl
@[simp] theorem State.halShutdown_deviceRom (s : State) : s.halShutdown.deviceRom = s.deviceRom := rfl
@[simp] theorem State.halShutdown_halIn (s : State) : s.halShutdown.halIn = s.halIn := rfl

/-! ### halCfgBus -/

@[simp] theorem State.halCfgBus_pc (s : State) (d : Direction) : (s.halCfgBus d).pc = s.pc := rfl
@[simp] theorem State.halCfgBus_addr (s : State) (d : Direction) : (s.halCfgBus d).addr = s.addr := rfl
@[simp] theorem State.halCfgBus_word (s : State) (d : Direction) : (s.halCfgBus d).word = s.word := rfl
@[simp] theorem State.halCfgBus_wvalid (s : State) (d : Direction) : (s.halCfgBus d).wvalid = s.wvalid := rfl
@[simp] theorem State.halCfgBus_busDir (s : State) (d : Direction) : (s.halCfgBus d).busDir = s.busDir := rfl
@[simp] theorem State.halCfgBus_busOut (s : State) (d : Direction) : (s.halCfgBus d).busOut = s.busOut := rfl
@[simp] theorem State.halCfgBus_ctl (s : State) (d : Direction) : (s.halCfgBus d).ctl = s.ctl := rfl
@[simp] theorem State.halCfgBus_hal (s : State) (d : Direction) : (s.halCfgBus d).hal = s.hal := rfl
@[simp] theorem State.halCfgBus_status (s : State) (d : Direction) : (s.halCfgBus d).status = s.status := rfl
@[simp] theorem State.halCfgBus_out (s : State) (d : Direction) : (s.halCfgBus d).out = s.out := rfl
@[simp] theorem State.halCfgBus_devA (s : State) (d : Direction) : (s.halCfgBus d).devA = s.devA := rfl
@[simp] theorem State.halCfgBus_trace (s : State) (d : Direction) : (s.halCfgBus d).trace = s.trace ++ (List.range busWidth).map fun i => .cfg (s.cfg.busLine i) d := rfl
@[simp] theorem State.halCfgBus_cfg (s : State) (d : Direction) : (s.halCfgBus d).cfg = s.cfg := rfl
@[simp] theorem State.halCfgBus_microRom (s : State) (d : Direction) : (s.halCfgBus d).microRom = s.microRom := rfl
@[simp] theorem State.halCfgBus_deviceRom (s : State) (d : Direction) : (s.halCfgBus d).deviceRom = s.deviceRom := rfl
@[simp] theorem State.halCfgBus_halIn (s : State) (d : Direction) : (s.halCfgBus d).halIn = s.halIn := rfl

/-! ### halDriveBus -/

@[simp] theorem State.halDriveBus_pc (s : State) (n : Nat) (level : Nat → Level) : (s.halDriveBus n level).pc = s.pc := rfl
@[simp] theorem State.halDriveBus_addr (s : State) (n : Nat) (level : Nat → Level) : (s.halDriveBus n level).addr = s.addr := rfl
@[simp] theorem State.halDriveBus_word (s : State) (n : Nat) (level : Nat → Level) : (s.halDriveBus n level).word = s.word := rfl
@[simp] theorem State.halDriveBus_wvalid (s : State) (n : Nat) (level : Nat → Level) : (s.halDriveBus n level).wvalid = s.wvalid := rfl
@[simp] theorem State.halDriveBus_busDir (s : State) (n : Nat) (level : Nat → Level) : (s.halDriveBus n level).busDir = s.busDir := rfl
@[simp] theorem State.halDriveBus_busOut (s : State) (n : Nat) (level : Nat → Level) : (s.halDriveBus n level).busOut = s.busOut := rfl
@[simp] theorem State.halDriveBus_ctl (s : State) (n : Nat) (level : Nat → Level) : (s.halDriveBus n level).ctl = s.ctl := rfl
@[simp] theorem State.halDriveBus_hal (s : State) (n : Nat) (level : Nat → Level) : (s.halDriveBus n level).hal = s.hal := rfl
@[simp] theorem State.halDriveBus_status (s : State) (n : Nat) (level : Nat → Level) : (s.halDriveBus n level).status = s.status := rfl
@[simp] theorem State.halDriveBus_out (s : State) (n : Nat) (level : Nat → Level) : (s.halDriveBus n level).out = s.out := rfl
@[simp] theorem State.halDriveBus_devA (s : State) (n : Nat) (level : Nat → Level) : (s.halDriveBus n level).devA = s.devA := rfl
@[simp] theorem State.halDriveBus_trace (s : State) (n : Nat) (level : Nat → Level) : (s.halDriveBus n level).trace = s.trace ++ (List.range n).map fun i => .drive (s.cfg.busLine i) (level i) := rfl
@[simp] theorem State.halDriveBus_cfg (s : State) (n : Nat) (level : Nat → Level) : (s.halDriveBus n level).cfg = s.cfg := rfl
@[simp] theorem State.halDriveBus_microRom (s : State) (n : Nat) (level : Nat → Level) : (s.halDriveBus n level).microRom = s.microRom := rfl
@[simp] theorem State.halDriveBus_deviceRom (s : State) (n : Nat) (level : Nat → Level) : (s.halDriveBus n level).deviceRom = s.deviceRom := rfl
@[simp] theorem State.halDriveBus_halIn (s : State) (n : Nat) (level : Nat → Level) : (s.halDriveBus n level).halIn = s.halIn := rfl

/-! ### latchDevice -/

@[simp] theorem State.latchDevice_pc (s : State) (g : Signal) : (s.latchDevice g).pc = s.pc := by cases g <;> rfl
@[simp] theorem State.latchDevice_addr (s : State) (g : Signal) : (s.latchDevice g).addr = s.addr := by cases g <;> rfl
@[simp] theorem State.latchDevice_word (s : State) (g : Signal) : (s.latchDevice g).word = s.word := by cases g <;> rfl
@[simp] theorem State.latchDevice_wvalid (s : State) (g : Signal) : (s.latchDevice g).wvalid = s.wvalid := by cases g <;> rfl
@[simp] theorem State.latchDevice_busDir (s : State) (g : Signal) : (s.latchDevice g).busDir = s.busDir := by cases g <;> rfl
@[simp] theorem State.latchDevice_busOut (s : State) (g : Signal) : (s.latchDevice g).busOut = s.busOut := by cases g <;> rfl
@[simp] theorem State.latchDevice_ctl (s : State) (g : Signal) : (s.latchDevice g).ctl = s.ctl := by cases g <;> rfl
@[simp] theorem State.latchDevice_hal (s : State) (g : Signal) : (s.latchDevice g).hal = s.hal := by cases g <;> rfl
@[simp] theorem State.latchDevice_status (s : State) (g : Signal) : (s.latchDevice g).status = s.status := by cases g <;> rfl
@[simp] theorem State.latchDevice_out (s : State) (g : Signal) : (s.latchDevice g).out = s.out := by cases g <;> rfl
@[simp] theorem State.latchDevice_trace (s : State) (g : Signal) : (s.latchDevice g).trace = s.trace := by cases g <;> rfl
@[simp] theorem State.latchDevice_cfg (s : State) (g : Signal) : (s.latchDevice g).cfg = s.cfg := by cases g <;> rfl
@[simp] theorem State.latchDevice_microRom (s : State) (g : Signal) : (s.latchDevice g).microRom = s.microRom := by cases g <;> rfl
@[simp] theorem State.latchDevice_deviceRom (s : State) (g : Signal) : (s.latchDevice g).deviceRom = s.deviceRom := by cases g <;> rfl
@[simp] theorem State.latchDevice_halIn (s : State) (g : Signal) : (s.latchDevice g).halIn = s.halIn := by cases g <;> rfl

@[simp] theorem State.latchDevice_devA (s : State) (g : Signal) :
    (s.latchDevice g).devA =
      match g with
      | .llat => { s.devA with low := captureLow s.busOut }
      | .hlat => { s.devA with high := captureHigh s.busOut }
      | .rd => s.devA
      | .wr => s.devA
      | .rst => s.devA := by cases g <;> rfl

end Sys2Proof.Machine
end

