-- ==== Sys2Proof/Laws/Ops.lean ====
section
/-! SUPPORT. For each shared operation, once, all that it can do. -/

namespace Sys2Proof

/-! ### Levels and control lines -/

@[simp] theorem Signal.idle_llat : Signal.idle .llat = .low := rfl
@[simp] theorem Signal.idle_hlat : Signal.idle .hlat = .low := rfl
@[simp] theorem Signal.idle_rd : Signal.idle .rd = .high := rfl
@[simp] theorem Signal.idle_wr : Signal.idle .wr = .low := rfl
@[simp] theorem Signal.idle_rst : Signal.idle .rst = .low := rfl

theorem Signal.idle_ne_active (g : Signal) : g.idle ≠ g.active := by cases g <;> decide

theorem lvl_eq_ite (b : Bool) : lvl b = if b then .high else .low := by cases b <;> rfl

@[simp] theorem bitOf_lvl (b : Bool) : bitOf (lvl b) = b := by cases b <;> rfl

@[simp] theorem lvl_bitOf (v : Level) : lvl (bitOf v) = v := by cases v <;> rfl

theorem bitOf_eq_beq (v : Level) : bitOf v = (v == .high) := by cases v <;> rfl

namespace Machine

@[simp] theorem CtlLines.get_set_self (c : CtlLines) (g : Signal) (r : Recorded) : (c.set g r).get g = r := by
  cases g <;> rfl

theorem CtlLines.get_set_of_ne (c : CtlLines) {g h : Signal} (r : Recorded) (hne : h ≠ g) :
    (c.set g r).get h = c.get h := by
  cases g <;> cases h <;> first | rfl | exact absurd rfl hne

@[simp] theorem CtlLines.set_set (c : CtlLines) (g : Signal) (r q : Recorded) : (c.set g r).set g q = c.set g q := by
  cases g <;> rfl

@[simp] theorem CtlLines.get_allUnknown (g : Signal) : CtlLines.allUnknown.get g = .unknown := by cases g <;> rfl

theorem CtlLines.get_rd (c : CtlLines) : c.get .rd = c.rd := rfl

@[simp] theorem busAllUnknown_get (i : Fin busWidth) : busAllUnknown[i] = .unknown := by simp [busAllUnknown]

@[simp] theorem busLow_get (a : Addr) (i : Fin busWidth) : (busLow a)[i] = .known (lowPhaseLevel a i.val) := by
  simp [busLow]

@[simp] theorem busHigh_get (a : Addr) (i : Fin busWidth) :
    (busHigh a)[i] = if i.val < highWidth then .known (highPhaseLevel a i.val) else .unknown := by
  simp [busHigh]

end Machine

/-! ### Parity and width of an address -/

theorem getLsbD_zero_eq_false_iff {n : Nat} (x : BitVec n) : x.getLsbD 0 = false ↔ x.toNat % 2 = 0 := by
  rw [BitVec.getLsbD, Nat.testBit_zero]
  simp

/-- `addr[24] = 0` says that the counter holds a 24-bit address. -/
theorem addr_bit24_eq_false_iff (a : Addr) : a.getLsbD 24 = false ↔ a.toNat < 2 ^ 24 := by
  have h := a.isLt
  rw [BitVec.getLsbD, Nat.testBit_eq_decide_div_mod_eq]
  simp only [decide_eq_false_iff_not]
  omega

/-- The counter stays even (R33). -/
theorem addr_add_two_even {a : Addr} (h : a.toNat % 2 = 0) : (a + 2#25).toNat % 2 = 0 := by
  rw [BitVec.toNat_add]
  simp only [BitVec.toNat_ofNat]
  omega

theorem busAddr_toNat (a : Addr) : (busAddr a).toNat = a.toNat % 2 ^ 24 := BitVec.toNat_setWidth ..

/-! ### Packing levels -/

theorem packLevels_lt (vs : List Level) : packLevels vs < 2 ^ vs.length := by
  induction vs with
  | nil => simp [packLevels]
  | cons v vs ih =>
    have : (bitOf v).toNat ≤ 1 := by cases bitOf v <;> decide
    simp only [packLevels, List.length_cons, pow_succ]
    omega

theorem packLevels_testBit (vs : List Level) (i : Nat) :
    (packLevels vs).testBit i = (vs[i]?.map bitOf).getD false := by
  induction vs generalizing i with
  | nil => simp [packLevels]
  | cons v vs ih =>
    cases i with
    | zero =>
      cases v <;> simp [packLevels, bitOf, Nat.testBit_zero]
    | succ i =>
      have hdiv : (packLevels (v :: vs)) / 2 = packLevels vs := by
        have : (bitOf v).toNat ≤ 1 := by cases bitOf v <;> decide
        simp only [packLevels]
        omega
      rw [Nat.testBit_succ, hdiv, ih]
      simp

/-- Line i goes to bit i (R65, R161). -/
theorem wordOfLevels_getLsbD (vs : List Level) (i : Nat) (hi : i < 16) :
    (wordOfLevels vs).getLsbD i = (vs[i]?.map bitOf).getD false := by
  rw [wordOfLevels, BitVec.getLsbD_ofNat, packLevels_testBit]
  simp [hi]

/-- Packing the levels of the bits of a number gives the number back. -/
theorem packLevels_lvl (n : Nat) (x : BitVec n) :
    BitVec.ofNat n (packLevels ((List.range n).map fun i => lvl (x.getLsbD i))) = x := by
  apply BitVec.eq_of_getLsbD_eq
  intro i hi
  rw [BitVec.getLsbD_ofNat, packLevels_testBit]
  simp [hi]

/-- The formula of R161: the sum of the bits, each times its power of two. -/
theorem packLevels_sum (n : Nat) (v : Nat → Level) :
    packLevels ((List.range n).map v) = ∑ i ∈ Finset.range n, (bitOf (v i)).toNat * 2 ^ i := by
  induction n generalizing v with
  | zero => simp [packLevels]
  | succ n ih =>
    rw [List.range_succ_eq_map, List.map_cons, List.map_map, packLevels, ih, Finset.sum_range_succ', Finset.mul_sum]
    simp only [Function.comp_apply, pow_zero, mul_one]
    rw [add_comm]
    congr 1
    refine Finset.sum_congr rfl fun i _ => ?_
    rw [pow_succ, Nat.succ_eq_add_one]
    ring

namespace Machine

/-! ### Checks and faults -/

/-- An op answers a next state always: its effect where every check holds, the fault of a check that fails otherwise. -/
theorem guarded_cases {cs : List Check} {e : State → State} {s : State} {r : Result} (h : guarded cs e s = r) :
    ((∀ c ∈ cs, c.holds = true) ∧ r = .next (e s)) ∨
      ∃ c ∈ cs, c.holds = false ∧ r = .next (s.takeFault c.fault) := by
  unfold guarded at h
  split at h
  · next c hc =>
    refine .inr ⟨c, List.mem_of_find?_eq_some hc, ?_, h.symm⟩
    simpa using List.find?_some hc
  · next hc =>
    refine .inl ⟨fun c hm => ?_, h.symm⟩
    simpa using List.find?_eq_none.mp hc c hm

theorem guarded_of_all {cs : List Check} {e : State → State} {s : State} (h : ∀ c ∈ cs, c.holds = true) :
    guarded cs e s = .next (e s) := by
  have : cs.find? (fun c => !c.holds) = none := List.find?_eq_none.mpr fun c hm => by simp [h c hm]
  simp [guarded, this]

@[simp] theorem guarded_nil (e : State → State) (s : State) : guarded [] e s = .next (e s) := rfl

/-- The first failing check is the one reported (R222). -/
theorem guarded_cons_false {c : Check} {cs : List Check} {e : State → State} {s : State} (h : c.holds = false) :
    guarded (c :: cs) e s = .next (s.takeFault c.fault) := by
  simp [guarded, h]

theorem guarded_cons_true {c : Check} {cs : List Check} {e : State → State} {s : State} (h : c.holds = true) :
    guarded (c :: cs) e s = guarded cs e s := by
  simp [guarded, h]

theorem guarded_isNext (cs : List Check) (e : State → State) (s : State) : ∃ t, guarded cs e s = .next t := by
  rcases guarded_cases (rfl : guarded cs e s = _) with ⟨-, h⟩ | ⟨c, -, -, h⟩
  · exact ⟨_, h⟩
  · exact ⟨_, h⟩

@[simp] theorem halReady_holds (s : State) : (halReady s).holds = true ↔ s.hal = .ready := by simp [halReady]
@[simp] theorem halUninit_holds (s : State) : (halUninit s).holds = true ↔ s.hal = .uninit := by simp [halUninit]
@[simp] theorem busIsOutput_holds (s : State) : (busIsOutput s).holds = true ↔ s.busDir = .output := by
  simp [busIsOutput]
@[simp] theorem busIsInput_holds (s : State) : (busIsInput s).holds = true ↔ s.busDir = .input := by
  simp [busIsInput]
@[simp] theorem addrValid_holds (s : State) :
    (addrValid s).holds = true ↔ s.addr.getLsbD 0 = false ∧ s.addr.getLsbD 24 = false := by
  simp [addrValid]
@[simp] theorem signalConfigured_holds (s : State) (t : Signal) :
    (signalConfigured s t).holds = true ↔ s.ctl.get t ≠ .unknown := by
  simp [signalConfigured]
@[simp] theorem signalIdle_holds (s : State) (t : Signal) :
    (signalIdle s t).holds = true ↔ s.ctl.get t = .known t.idle := by
  simp [signalIdle]
@[simp] theorem strobeNeedsInput_holds (s : State) (g : Signal) :
    (strobeNeedsInput s g).holds = true ↔ (g = .rd → s.busDir = .input) := by
  cases g <;> simp [strobeNeedsInput]
@[simp] theorem strobeIdle_holds (s : State) : (strobeIdle s).holds = true ↔ s.ctl.rd = .known .high := by
  simp [strobeIdle]
@[simp] theorem wordWritten_holds (s : State) : (wordWritten s).holds = true ↔ s.wvalid = true := Iff.rfl

/-- When PULSE or ASSERT of a signal has all it requires (R136, R150). -/
theorem activationChecks_hold (s : State) (g : Signal) :
    (∀ c ∈ activationChecks s g, c.holds = true) ↔
      s.hal = .ready ∧ (∀ t : Signal, s.ctl.get t = .known t.idle) ∧ (g = .rd → s.busDir = .input) := by
  constructor
  · intro h
    refine ⟨(halReady_holds s).mp (h _ (by simp [activationChecks])), fun t => ?_,
      (strobeNeedsInput_holds s g).mp (h _ (by simp [activationChecks]))⟩
    refine (signalIdle_holds s t).mp (h _ ?_)
    cases t <;> simp [activationChecks, Signal.all]
  · rintro ⟨hr, hi, hb⟩ c hc
    simp only [activationChecks, List.cons_append, List.mem_cons, List.mem_append, List.mem_map, List.not_mem_nil, or_false] at hc
    rcases hc with rfl | (⟨t, -, rfl⟩ | ⟨t, -, rfl⟩) | rfl
    · simpa using hr
    · simp [hi t]
    · simpa using hi t
    · simpa using hb

/-! ### The device's side -/

theorem knownLevels_map_known (vs : List Level) : knownLevels (vs.map .known) = some vs := by
  induction vs with
  | nil => rfl
  | cons v vs ih => simp [knownLevels, ih]

theorem knownLevels_of_unknown {rs : List Recorded} (h : .unknown ∈ rs) : knownLevels rs = none := by
  induction rs with
  | nil => simp at h
  | cons r rs ih =>
    cases r with
    | unknown => rfl
    | known v => simp [knownLevels, ih (by simpa using h)]

theorem busLow_toList (a : Addr) :
    (busLow a).toList = ((List.range 16).map (lowPhaseLevel a)).map .known := by
  simp [busLow, Vector.toList_ofFn, List.ofFn_succ, List.range_succ]

theorem busHigh_take (a : Addr) :
    (busHigh a).toList.take highWidth = ((List.range 8).map (highPhaseLevel a)).map .known := by
  simp [busHigh, Vector.toList_ofFn, List.ofFn_succ, List.range_succ, highWidth]

/-- After PRESENT LOW, a LowAddressLatch pulse captures the low 16 bits of the address. -/
@[simp] theorem captureLow_busLow (a : Addr) : captureLow (busLow a) = some (a.setWidth 16) := by
  simp only [captureLow, busLow_toList, knownLevels_map_known, Option.map_some, Option.some.injEq]
  refine Eq.trans (congrArg _ (congrArg _ (List.map_congr_left fun i hi => ?_))) (packLevels_lvl 16 _)
  simp at hi
  simp [lowPhaseLevel, hi]

/-- After PRESENT HIGH, a HighAddressLatch pulse captures bits 23 to 16 of the address. -/
@[simp] theorem captureHigh_busHigh (a : Addr) : captureHigh (busHigh a) = some (a.extractLsb' 16 8) := by
  simp only [captureHigh, busHigh_take, knownLevels_map_known, Option.map_some, Option.some.injEq]
  refine Eq.trans (congrArg _ (congrArg _ (List.map_congr_left fun i hi => ?_))) (packLevels_lvl 8 _)
  simp at hi
  simp [highPhaseLevel, hi]

/-- A pulse on a bus that is not driven leaves that half of the latch Unknown. -/
@[simp] theorem captureLow_busAllUnknown : captureLow busAllUnknown = none := by decide

@[simp] theorem captureHigh_busAllUnknown : captureHigh busAllUnknown = none := by decide

/-! ### The device's content -/

theorem Memory.rising_cons {a : Nat} {v : BusWord} {m : Memory} :
    Memory.rising ((a, v) :: m) = true ↔ (∀ e ∈ m, a < e.1) ∧ Memory.rising m = true := by
  induction m generalizing a v with
  | nil => simp [Memory.rising]
  | cons e m ih =>
    obtain ⟨b, w⟩ := e
    simp only [Memory.rising, Bool.and_eq_true, decide_eq_true_eq, List.mem_cons, forall_eq_or_imp]
    constructor
    · rintro ⟨hab, hr⟩
      exact ⟨⟨hab, fun e he => hab.trans ((ih.mp hr).1 e he)⟩, hr⟩
    · rintro ⟨⟨hab, -⟩, hr⟩
      exact ⟨hab, hr⟩

theorem Memory.read_write_self (m : Memory) (a : Nat) (w : BusWord) : (m.write a w).read a = some w := by
  induction m with
  | nil => simp [Memory.write, Memory.read]
  | cons e m ih =>
    obtain ⟨b, v⟩ := e
    simp only [Memory.write]
    split
    · simp [Memory.read]
    · split
      · simp [Memory.read]
      · next h => simp [Memory.read, h, ih]

theorem Memory.read_write_of_ne (m : Memory) {a b : Nat} (w : BusWord) (h : b ≠ a) : (m.write a w).read b = m.read b := by
  induction m with
  | nil => simp [Memory.write, Memory.read, h]
  | cons e m ih =>
    obtain ⟨c, v⟩ := e
    simp only [Memory.write]
    split
    · simp [Memory.read, h]
    · split
      · next hac => subst hac; simp [Memory.read, h]
      · simp [Memory.read, ih]

theorem Memory.mem_write {m : Memory} {a : Nat} {w : BusWord} {e : Nat × BusWord} (h : e ∈ m.write a w) :
    e = (a, w) ∨ e ∈ m := by
  induction m with
  | nil => simpa [Memory.write] using h
  | cons f m ih =>
    obtain ⟨c, v⟩ := f
    simp only [Memory.write] at h
    split at h
    · simpa using h
    · split at h
      · rcases List.mem_cons.mp h with h | h
        · exact .inl h
        · exact .inr (List.mem_cons_of_mem _ h)
      · rcases List.mem_cons.mp h with h | h
        · exact .inr (h ▸ List.mem_cons_self)
        · exact (ih h).imp id (List.mem_cons_of_mem _)

/-- Setting a word of the content keeps the canonical form. -/
theorem Memory.write_wf {m : Memory} (h : m.wf = true) {a : Nat} (w : BusWord) (he : a % 2 = 0) (hl : a < 2 ^ 24) :
    (m.write a w).wf = true := by
  simp only [Memory.wf, Bool.and_eq_true, List.all_eq_true, decide_eq_true_eq] at h ⊢
  refine ⟨?_, fun e hm => (Memory.mem_write hm).elim (fun h => by subst h; exact ⟨he, hl⟩) (h.2 e)⟩
  obtain ⟨hr, -⟩ := h
  induction m with
  | nil => rfl
  | cons e m ih =>
    obtain ⟨b, v⟩ := e
    obtain ⟨hb, hm⟩ := Memory.rising_cons.mp hr
    simp only [Memory.write]
    split
    · next hab =>
      refine Memory.rising_cons.mpr ⟨fun e he => ?_, hr⟩
      rcases List.mem_cons.mp he with rfl | he
      · exact hab
      · exact hab.trans (hb e he)
    · next hab =>
      split
      · next heq => subst heq; exact Memory.rising_cons.mpr ⟨hb, hm⟩
      · next hne =>
        refine Memory.rising_cons.mpr ⟨fun e he => ?_, ih hm⟩
        rcases Memory.mem_write he with rfl | he
        · show b < a; omega
        · exact hb e he

/-! ### Fetch -/

theorem fetch_eq_ok {s : State} {w : OpWord} {i : Instr} (hw : s.microRom[s.pc.toNat]? = some w) (hi : decode w = .ok i) :
    fetch s = .ok i := by
  simp [fetch, hw, hi]

/-- What fetch can answer: the op the word at `pc` decodes to, or one of its two faults. -/
theorem fetch_cases (s : State) :
    (∃ w i, s.microRom[s.pc.toNat]? = some w ∧ decode w = .ok i ∧ fetch s = .ok i)
      ∨ (s.microRom.length ≤ s.pc.toNat ∧ fetch s = .error (.pcRange s.pc))
      ∨ ∃ w, s.microRom[s.pc.toNat]? = some w ∧ decode w = .error (.illegalOp w) ∧ fetch s = .error (.illegalOp w) := by
  unfold fetch
  cases hw : s.microRom[s.pc.toNat]? with
  | none => exact .inr (.inl ⟨by simpa using hw, rfl⟩)
  | some w =>
    cases hi : decode w with
    | ok i => exact .inl ⟨w, i, rfl, hi, by simp [hi]⟩
    | error r =>
      obtain ⟨w'⟩ := r
      have : w' = w := by
        unfold decode at hi
        split at hi
        · cases hi
        · injection hi with h; injection h with h; exact h.symm
      subst this
      exact .inr (.inr ⟨w', rfl, hi, by simp [hi]⟩)

theorem placeOpWord_get (rom : List OpWord) (p : MicroPc) (w : OpWord) : (placeOpWord rom p w)[p.toNat]? = some w := by
  rw [placeOpWord, List.getElem?_set_self]
  simp only [List.length_append, List.length_replicate]
  omega

end Machine

end Sys2Proof
end

