-- ==== Sys2Proof/Laws/Exec.lean ====
section
/-! SUPPORT. What every op can do, once: its checks, and its effect where they hold. -/

namespace Sys2Proof.Machine

open Sys2Proof

/-- The checks of an op, in order. -/
def checksOf (i : Instr) (s : State) : List Check :=
  match i with
  | .init => [halUninit s]
  | .ctlidleLlat | .ctlidleHlat | .ctlidleRd | .ctlidleWr | .ctlidleRst => [halReady s]
  | .setdirOut => [halReady s, strobeIdle s]
  | .setdirIn => [halReady s]
  | .presentLow | .presentHigh => [halReady s, busIsOutput s, addrValid s]
  | .pulseLlat | .assertLlat => activationChecks s .llat
  | .pulseHlat | .assertHlat => activationChecks s .hlat
  | .pulseRd | .assertRd => activationChecks s .rd
  | .pulseWr | .assertWr => activationChecks s .wr
  | .pulseRst | .assertRst => activationChecks s .rst
  | .deassertLlat => [halReady s, signalConfigured s .llat]
  | .deassertHlat => [halReady s, signalConfigured s .hlat]
  | .deassertRd => [halReady s, signalConfigured s .rd]
  | .deassertWr => [halReady s, signalConfigured s .wr]
  | .deassertRst => [halReady s, signalConfigured s .rst]
  | .settle => [halReady s]
  | .sample => [halReady s, busIsInput s]
  | .emit => [wordWritten s, addrValid s]
  | .advance => []
  | .shutdown => [halReady s]
  | .halt => []

/-- What CTLIDLE does to its signal. -/
def ctlidleEffect (g : Signal) (s : State) : State :=
  (((s.halCfg (s.cfg.line g) .output).halDrive (s.cfg.line g) g.idle).setCtl g g.idle).nextPc

/-- What an op that only drives its signal does. -/
def driveEffect (g : Signal) (v : Level) (s : State) : State :=
  ((s.halDrive (s.cfg.line g) v).setCtl g v).nextPc

/-- The effect of an op where its checks hold. -/
def effectOf (i : Instr) (s : State) : State :=
  match i with
  | .init => initEffect s
  | .ctlidleLlat => ctlidleEffect .llat s
  | .ctlidleHlat => ctlidleEffect .hlat s
  | .ctlidleRd => ctlidleEffect .rd s
  | .ctlidleWr => ctlidleEffect .wr s
  | .ctlidleRst => ctlidleEffect .rst s
  | .setdirOut => setdirEffect .output s
  | .setdirIn => setdirEffect .input s
  | .presentLow => ((s.halDriveBus busWidth (lowPhaseLevel s.addr)).setBusOut (busLow s.addr)).nextPc
  | .presentHigh => ((s.halDriveBus highWidth (highPhaseLevel s.addr)).setBusOut (busHigh s.addr)).nextPc
  | .pulseLlat => pulseEffect .llat s
  | .pulseHlat => pulseEffect .hlat s
  | .pulseRd => pulseEffect .rd s
  | .pulseWr => pulseEffect .wr s
  | .pulseRst => pulseEffect .rst s
  | .assertLlat => driveEffect .llat .high s
  | .assertHlat => driveEffect .hlat .high s
  | .assertRd => driveEffect .rd .low s
  | .assertWr => driveEffect .wr .high s
  | .assertRst => driveEffect .rst .high s
  | .deassertLlat => driveEffect .llat .low s
  | .deassertHlat => driveEffect .hlat .low s
  | .deassertRd => driveEffect .rd .high s
  | .deassertWr => driveEffect .wr .low s
  | .deassertRst => driveEffect .rst .low s
  | .settle => (s.halWait s.cfg.strobeSettleUs).nextPc
  | .sample => (s.halSampleBus.setWord (wordOfLevels s.sampledLevels)).nextPc
  | .emit => (s.emitPair (busAddr s.addr) s.word).nextPc
  | .advance => advanceEffect s
  | .shutdown => (s.halShutdown.setHal .shut).nextPc
  | .halt => s.haltWith 0#8

/-- Every op is its checks and its effect. -/
theorem exec_eq_guarded (i : Instr) (s : State) : exec i s = guarded (checksOf i s) (effectOf i) s := by
  cases i <;> rfl

/-- Everything an op can do: its effect where its checks hold, else the fault of one of them. -/
theorem exec_cases {i : Instr} {s t : State} (h : exec i s = .next t) :
    ((∀ c ∈ checksOf i s, c.holds = true) ∧ t = effectOf i s)
      ∨ ∃ c ∈ checksOf i s, c.holds = false ∧ t = s.takeFault c.fault := by
  rw [exec_eq_guarded] at h
  rcases guarded_cases h with ⟨hc, he⟩ | ⟨c, hm, hc, he⟩
  · injection he with he; exact .inl ⟨hc, he⟩
  · injection he with he; exact .inr ⟨c, hm, hc, he⟩

/-- An op whose checks hold has its effect. -/
theorem exec_of_checks {i : Instr} {s : State} (h : ∀ c ∈ checksOf i s, c.holds = true) :
    exec i s = .next (effectOf i s) := by
  rw [exec_eq_guarded, guarded_of_all h]

end Sys2Proof.Machine
end

