-- ==== Sys2Proof/Laws/PerInstr.lean ====
section
/-! SUPPORT. Facts about every instruction as syntax, one lemma per constructor. -/

namespace Sys2Proof.Laws.RoundTrip

open Sys2Proof

/-- The op-word of an instruction decodes to it (spec/30_encoding.md R91, R97), and its fields are legal (R96). -/
def Statement (i : Instr) : Prop :=
  decode (encode i) = .ok i ∧ legalFields (opField (encode i)) (argField (encode i)) = true

theorem init : Statement .init := by unfold Statement; decide
theorem ctlidleLlat : Statement .ctlidleLlat := by unfold Statement; decide
theorem ctlidleHlat : Statement .ctlidleHlat := by unfold Statement; decide
theorem ctlidleRd : Statement .ctlidleRd := by unfold Statement; decide
theorem ctlidleWr : Statement .ctlidleWr := by unfold Statement; decide
theorem ctlidleRst : Statement .ctlidleRst := by unfold Statement; decide
theorem setdirOut : Statement .setdirOut := by unfold Statement; decide
theorem setdirIn : Statement .setdirIn := by unfold Statement; decide
theorem presentLow : Statement .presentLow := by unfold Statement; decide
theorem presentHigh : Statement .presentHigh := by unfold Statement; decide
theorem pulseLlat : Statement .pulseLlat := by unfold Statement; decide
theorem pulseHlat : Statement .pulseHlat := by unfold Statement; decide
theorem pulseRd : Statement .pulseRd := by unfold Statement; decide
theorem pulseWr : Statement .pulseWr := by unfold Statement; decide
theorem pulseRst : Statement .pulseRst := by unfold Statement; decide
theorem assertLlat : Statement .assertLlat := by unfold Statement; decide
theorem assertHlat : Statement .assertHlat := by unfold Statement; decide
theorem assertRd : Statement .assertRd := by unfold Statement; decide
theorem assertWr : Statement .assertWr := by unfold Statement; decide
theorem assertRst : Statement .assertRst := by unfold Statement; decide
theorem deassertLlat : Statement .deassertLlat := by unfold Statement; decide
theorem deassertHlat : Statement .deassertHlat := by unfold Statement; decide
theorem deassertRd : Statement .deassertRd := by unfold Statement; decide
theorem deassertWr : Statement .deassertWr := by unfold Statement; decide
theorem deassertRst : Statement .deassertRst := by unfold Statement; decide
theorem settle : Statement .settle := by unfold Statement; decide
theorem sample : Statement .sample := by unfold Statement; decide
theorem emit : Statement .emit := by unfold Statement; decide
theorem advance : Statement .advance := by unfold Statement; decide
theorem shutdown : Statement .shutdown := by unfold Statement; decide
theorem halt : Statement .halt := by unfold Statement; decide

end Sys2Proof.Laws.RoundTrip
end

