-- ==== Sys2Proof/Laws/Step.lean ====
section
/-! SUPPORT. What a step can do, and runs. -/

namespace Sys2Proof.Machine

open Sys2Proof

@[simp] theorem State.isRunning_iff (s : State) : s.isRunning = true ↔ s.status = .running := by
  simp [State.isRunning]

/-- What a run asks of the configuration, as a rule (R42, R43). -/
theorem State.configured_iff (s : State) :
    s.configured = true ↔ s.cfg.valid = true ∧ (s.microRom = canonicalRom → s.cfg.loopPc = 7#5) := by
  simp only [State.configured, Configuration.validWith, Configuration.loopPcLegal, Bool.and_eq_true, decide_eq_true_eq]

/-- With `LOOP_PC` 7 a valid configuration runs every micro-ROM. -/
theorem State.configured_of_loop {s : State} (hv : s.cfg.valid = true) (hl : s.cfg.loopPc = 7#5) : s.configured = true :=
  s.configured_iff.mpr ⟨hv, fun _ => hl⟩

/-- Everything a step can answer. -/
theorem step_cases {s t : State} (h : step s = .next t) :
    s.configured = true ∧
      ((s.status ≠ .running ∧ t = s)
        ∨ (s.status = .running ∧ ∃ i, fetch s = .ok i ∧ exec i s = .next t)
        ∨ (s.status = .running ∧ ∃ f, fetch s = .error f ∧ t = s.takeFault f)) := by
  unfold step at h
  split at h
  · next hv =>
    refine ⟨hv, ?_⟩
    split at h
    · next hr =>
      rw [State.isRunning_iff] at hr
      split at h
      · next i hi => exact .inr (.inl ⟨hr, i, hi, h⟩)
      · next f hf => injection h with h; exact .inr (.inr ⟨hr, f, hf, h.symm⟩)
    · next hr =>
      injection h with h
      exact .inl ⟨by simpa using hr, h.symm⟩
  · cases h

theorem step_of_fetch {s : State} {i : Instr} (hv : s.configured = true) (hr : s.status = .running)
    (hf : fetch s = .ok i) : step s = exec i s := by
  simp [step, hv, State.isRunning, hr, hf]

theorem coreRun_succ (M : Host.Core) (n : Nat) (s : M.State) :
    M.run (n + 1) s = (match M.step s with
      | .next t => M.run n t
      | .fault f => .fault f
      | .refused r => .refused r) := rfl

/-- The runs of Safety are the runs of the host's machine. -/
theorem runSteps_eq_run (n : Nat) (s : State) : runSteps n s = Host.Core.run Sys2Proof.core n s := by
  induction n generalizing s with
  | zero => rfl
  | succ n ih =>
    refine Eq.trans ?_ (coreRun_succ Sys2Proof.core n s).symm
    unfold runSteps
    cases h : step s with
    | next t => rw [show Sys2Proof.core.step s = .next t from h]; exact ih t
    | fault f => exact nomatch f
    | refused r => rw [show Sys2Proof.core.step s = .refused r from h]; rfl

theorem runSteps_succ_of_next {s t : State} (n : Nat) (h : step s = .next t) : runSteps (n + 1) s = runSteps n t := by
  simp [runSteps, h]

theorem runSteps_add {m : Nat} {s t : State} (n : Nat) (h : runSteps m s = .next t) :
    runSteps (m + n) s = runSteps n t := by
  induction m generalizing s with
  | zero => simp only [runSteps] at h; injection h with h; subst h; simp
  | succ m ih =>
    rw [Nat.add_right_comm]
    simp only [runSteps] at h ⊢
    cases hs : step s with
    | next u => rw [hs] at h; exact ih h
    | fault f => exact nomatch f
    | refused r => rw [hs] at h; cases h

end Sys2Proof.Machine
end

