-- ==== Sys2Proof/Laws/Canonical.lean ====
section
/-! SUPPORT. What a step of the canonical micro-ROM is, and what a valid configuration says of its bank, once. -/

namespace Sys2Proof.Machine

open Sys2Proof

/-- The next index of an op, where R31 gives it. -/
theorem pcPlusOne_add_one (s : State) : s.PcPlusOne (s.pc + 1#5) := by
  intro h
  rw [BitVec.toNat_add]
  simp only [BitVec.toNat_ofNat]
  omega

/-- R43 (c), out of a valid configuration. -/
theorem bankSize_of_valid {c : Configuration} (h : c.valid = true) :
    c.bankSize.toNat % 2 = 0 ∧ 2 ≤ c.bankSize.toNat ∧ c.bankSize.toNat ≤ 0x1000000 := by
  simp only [Configuration.valid, Configuration.bankSizeLegal, Bool.and_eq_true, decide_eq_true_eq] at h
  exact ⟨h.1.2.1.1, h.1.2.1.2, h.1.2.2⟩

/-- A step at index k of the canonical micro-ROM is the op of entry k. -/
theorem step_of_canonical {s : State} {k : Nat} {w : OpWord} {i : Instr} (hk : canonicalRom[k]? = some w)
    (hi : decode w = .ok i) (hv : s.cfg.valid = true) (hl : s.cfg.loopPc = 7#5) (hr : s.status = .running)
    (hm : s.microRom = canonicalRom) (hp : s.pc.toNat = k) : step s = exec i s :=
  step_of_fetch (State.configured_of_loop hv hl) hr (fetch_eq_ok (by rw [hm, hp]; exact hk) hi)

/-- The first step of a run of the canonical micro-ROM. -/
theorem runSteps_canonical_succ {s t : State} {k : Nat} {w : OpWord} {i : Instr} (n : Nat)
    (hk : canonicalRom[k]? = some w) (hi : decode w = .ok i) (hv : s.cfg.valid = true) (hl : s.cfg.loopPc = 7#5)
    (hr : s.status = .running) (hm : s.microRom = canonicalRom) (hp : s.pc.toNat = k) (he : exec i s = .next t) :
    runSteps (n + 1) s = runSteps n t :=
  runSteps_succ_of_next n ((step_of_canonical hk hi hv hl hr hm hp).trans he)

/-- The two halves of the latch of an even address in the bank, put together, are that address. -/
theorem latchHalves_toNat {a : Addr} (ha : a.toNat < 2 ^ 24) :
    (a.extractLsb' 16 8 ++ a.setWidth 16 : BitVec (8 + 16)).toNat = a.toNat := by
  rw [BitVec.toNat_append, BitVec.toNat_setWidth, BitVec.extractLsb'_toNat, Nat.shiftRight_eq_div_pow]
  rw [← Nat.shiftLeft_add_eq_or_of_lt (by omega), Nat.shiftLeft_eq]
  omega

end Sys2Proof.Machine
end

