-- ==== Sys2Proof/Tests/Slice0.lean ====
section
/-! SUPPORT. Tests. Every expected value is transcribed from spec/ (the id of a vector is one of spec/95_test_vectors.md).
Witnesses: for every statement with hypotheses, a state and operands that meet them. -/

namespace Sys2Proof.Tests

open Sys2Proof Sys2Proof.Machine

/-! ### What may be given to the machine (R43, R92 to R96) -/

theorem test_production_valid : Config.production.valid = true := by decide

theorem test_harness_valid : Config.harness.valid = true := by decide

theorem test_refuses_shared_line : { Config.harness with lineLlat := 17 }.linesDistinct = false := by decide

theorem test_refuses_shared_control_line : { Config.harness with lineWr := 22 }.linesDistinct = false := by decide

theorem test_refuses_zero_hold : { Config.harness with latchHoldUs := 0 }.waitsPositive = false := by decide

theorem test_refuses_zero_settle : { Config.harness with strobeSettleUs := 0 }.waitsPositive = false := by decide

theorem test_refuses_odd_bank : { Config.harness with bankSize := 0x11#25 }.bankSizeLegal = false := by decide

theorem test_refuses_empty_bank : { Config.harness with bankSize := 0#25 }.bankSizeLegal = false := by decide

theorem test_refuses_large_bank : { Config.harness with bankSize := 0x1000002#25 }.bankSizeLegal = false := by decide

theorem test_accepts_smallest_bank : { Config.harness with bankSize := 2#25 }.valid = true := by decide

theorem test_valid_needs_each_check :
    { Config.harness with lineLlat := 17 }.valid = false ∧ { Config.harness with latchHoldUs := 0 }.valid = false ∧
    { Config.harness with bankSize := 0x11#25 }.valid = false := by decide

/-- R42: 7 under the canonical micro-ROM; R101: a test program's own `LOOP_PC`. -/
theorem test_loop_pc : Config.production.validWith canonicalRom = true ∧
    { Config.harness with loopPc := 8#5 }.validWith canonicalRom = false ∧
    { Config.harness with loopPc := 1#5 }.validWith [0x00#8, 0xA0#8, 0xB0#8, 0xC0#8] = true := by decide

/-- R95. -/
theorem test_refuses_operand_of_init : legalFields 0x0 0x1 = false := by decide

/-- R92. -/
theorem test_refuses_direction_two : legalFields 0x2 0x2 = false := by decide

/-- R93. -/
theorem test_refuses_phase_two : legalFields 0x3 0x2 = false := by decide

/-- R94. -/
theorem test_refuses_signal_five : legalFields 0x4 0x5 = false := by decide

/-- R96: op 0xD to 0xF. -/
theorem test_refuses_reserved_op : legalFields 0xD 0x0 = false := by decide

/-- R40, R37. -/
theorem test_signal_levels : Signal.all.map Signal.id = [0, 1, 2, 3, 4] ∧
    Signal.all.map Signal.active = [.high, .high, .low, .high, .high] ∧
    Signal.all.map Signal.idle = [.low, .low, .high, .low, .low] := by decide

/-- R99, R221. -/
theorem test_codes : [Level.low, .high].map Level.code = [0, 1] ∧ [Direction.output, .input].map Direction.code = [0, 1] ∧
    [Phase.low, .high].map Phase.code = [0, 1] ∧ [HalState.uninit, .ready, .shut].map HalState.code = [0, 1, 2] ∧
    (ModelFault.illegalOp 0x15#8).code = 0x01#8 ∧ (ModelFault.illegalOp 0x15#8).info = 0x15 ∧
    (ModelFault.signalOverlap .rd).code = 0x09#8 ∧ (ModelFault.signalOverlap .rd).info = 2 ∧
    (ModelFault.addrInvalid 0x1000000#25).code = 0x07#8 ∧ (ModelFault.addrInvalid 0x1000000#25).info = 0x1000000 := by decide

/-! ### Decoding, each word written out from its encoding (R90 to R97) -/

theorem test_decode_init : decode 0b00000000#8 = .ok .init := by decide

theorem test_decode_ctlidle : [0b00010000#8, 0b00010001#8, 0b00010010#8, 0b00010011#8, 0b00010100#8].map decode =
    [.ok .ctlidleLlat, .ok .ctlidleHlat, .ok .ctlidleRd, .ok .ctlidleWr, .ok .ctlidleRst] := by rfl

theorem test_decode_setdir : [0b00100000#8, 0b00100001#8].map decode = [.ok .setdirOut, .ok .setdirIn] := by rfl

theorem test_decode_present : [0b00110000#8, 0b00110001#8].map decode = [.ok .presentLow, .ok .presentHigh] := by rfl

theorem test_decode_pulse : [0b01000000#8, 0b01000001#8, 0b01000010#8, 0b01000011#8, 0b01000100#8].map decode =
    [.ok .pulseLlat, .ok .pulseHlat, .ok .pulseRd, .ok .pulseWr, .ok .pulseRst] := by rfl

theorem test_decode_assert : [0b01010000#8, 0b01010001#8, 0b01010010#8, 0b01010011#8, 0b01010100#8].map decode =
    [.ok .assertLlat, .ok .assertHlat, .ok .assertRd, .ok .assertWr, .ok .assertRst] := by rfl

theorem test_decode_deassert : [0b01100000#8, 0b01100001#8, 0b01100010#8, 0b01100011#8, 0b01100100#8].map decode =
    [.ok .deassertLlat, .ok .deassertHlat, .ok .deassertRd, .ok .deassertWr, .ok .deassertRst] := by rfl

theorem test_decode_settle : decode 0b01110000#8 = .ok .settle := by decide

theorem test_decode_sample : decode 0b10000000#8 = .ok .sample := by decide

theorem test_decode_emit : decode 0b10010000#8 = .ok .emit := by decide

theorem test_decode_advance : decode 0b10100000#8 = .ok .advance := by decide

theorem test_decode_shutdown : decode 0b10110000#8 = .ok .shutdown := by decide

theorem test_decode_halt : decode 0b11000000#8 = .ok .halt := by decide

/-- T-DE-2, 4, 5, 7, 9, 11, 14, 16, 18, 19. -/
theorem test_decode_rejects : [0x01#8, 0x15#8, 0x1F#8, 0x22#8, 0x32#8, 0x45#8, 0x65#8, 0x71#8, 0x8F#8, 0xA1#8, 0xC1#8, 0xD0#8,
    0xE5#8, 0xFF#8].all (fun w => decide (decode w = .error (.illegalOp w))) = true := by decide

/-- R96: 31 of the 256 op-words. -/
theorem test_decode_count : allOps.length = 31 := by decide

/-- R103: the canonical micro-ROM as pseudo-instructions and ops. -/
theorem test_canonical_rom_of_pseudos : (bootOps ++ cycleOps ++ [Instr.advance, .shutdown, .halt]).map encode = canonicalRom := by
  decide

/-- R102: a label, an operand, blanks and a comment. -/
theorem test_assemble_line : assembleLine ['4', ':', ' ', 'P', 'U', 'L', 'S', 'E', ' ', ' ', 'R', 'D', ';', 'x'] =
    some [.pulseRd] := by decide

/-! ### States -/

/-- S7, written out from R52. -/
def s7 : State :=
  { State.resetWith Config.harness with
    pc := 7#5, busDir := .output, hal := .ready
    ctl := { llat := .known .low, hlat := .known .low, rd := .known .high, wr := .known .low, rst := .known .low } }

/-- S7 after SETDIR IN. -/
def s7In : State := { s7 with pc := 8#5, busDir := .input }

/-- S7 after SETDIR IN and ASSERT RD. -/
def s7Strobe : State := { s7In with pc := 9#5, ctl := { s7.ctl with rd := .known .low } }

/-- Power-on reset, the HAL answering `Init(ok)`. -/
def on : State :=
  { State.resetWith Config.harness with halIn := { inits := [.ok], levels := [], initCount := 0, levelCount := 0 } }

/-- Power-on reset, the HAL answering `Init(fail)`. -/
def onFail : State :=
  { State.resetWith Config.harness with halIn := { inits := [.fail], levels := [], initCount := 0, levelCount := 0 } }

/-- After a successful INIT. -/
def inited : State := { State.resetWith Config.harness with pc := 1#5, hal := .ready }

/-- After a SHUTDOWN. -/
def shut : State := { inited with pc := 2#5, hal := .shut }

/-- One step of an op-word placed at `pc`: the events it adds, then `status` and `pc`. -/
def added (w : OpWord) (s : State) : Option (List Event × Status × MicroPc) :=
  match step (s.withFetchWord 8 w.toNat) with
  | .next t => some (t.trace.drop s.trace.length, t.status, t.pc)
  | .fault _ => none
  | .refused _ => none

/-- The state after that step. -/
def after (w : OpWord) (s : State) : State :=
  match step (s.withFetchWord 8 w.toNat) with
  | .next t => t
  | .fault _ => s
  | .refused _ => s

/-- "Cfg(2..17, d)". -/
def busCfg (d : Direction) : List Event :=
  [.cfg 2 d, .cfg 3 d, .cfg 4 d, .cfg 5 d, .cfg 6 d, .cfg 7 d, .cfg 8 d, .cfg 9 d, .cfg 10 d, .cfg 11 d, .cfg 12 d, .cfg 13 d,
    .cfg 14 d, .cfg 15 d, .cfg 16 d, .cfg 17 d]

/-- The levels of a list of bits, 1 = HIGH. -/
def bits (bs : List Nat) : List Level := bs.map fun b => if b = 1 then .high else .low

/-- Drives of consecutive HAL lines from 2. -/
def busDrives (bs : List Nat) : List Event := (bits bs).zipIdx.map fun e => .drive (2 + e.2) e.1

/-! ### One step of each op -/

/-- T-IN-1, T-IN-3, T-IN-4. -/
theorem test_init : added 0x00 on = some ([.init .ok], .running, 1#5) ∧ (after 0x00 on).hal = .ready ∧
    added 0x00 inited = some ([], .faulted (.doubleInit 1#5), 1#5) ∧
    added 0x00 shut = some ([], .faulted (.doubleInit 2#5), 2#5) := by decide

/-- T-IN-2. -/
theorem test_init_fail : added 0x00 onFail = some ([.init .fail, .diag], .halted 1#8, 0#5) ∧
    (after 0x00 onFail).hal = .uninit := by decide

/-- T-CI-2. -/
theorem test_ctlidle_llat : added 0x10 inited = some ([.cfg 18 .output, .drive 18 .low], .running, 2#5) ∧
    (after 0x10 inited).ctl.llat = .known .low := by decide

/-- T-PU-9 (its second op). -/
theorem test_ctlidle_hlat : added 0x11 inited = some ([.cfg 19 .output, .drive 19 .low], .running, 2#5) := by decide

/-- T-CI-1, T-CI-3. -/
theorem test_ctlidle_rd : added 0x12 inited = some ([.cfg 20 .output, .drive 20 .high], .running, 2#5) ∧
    (after 0x12 s7Strobe).ctl = s7.ctl := by decide

/-- B27. -/
theorem test_ctlidle_wr : added 0x13 inited = some ([.cfg 21 .output, .drive 21 .low], .running, 2#5) := by decide

/-- B27; T-SH-3 for the fault. -/
theorem test_ctlidle_rst : added 0x14 inited = some ([.cfg 22 .output, .drive 22 .low], .running, 2#5) ∧
    added 0x14 shut = some ([], .faulted (.halNotReady 2#5), 2#5) := by decide

/-- T-DI-3. -/
theorem test_setdir_out : added 0x20 s7 = some (busCfg .output, .running, 8#5) ∧ (after 0x20 s7).busDir = .output := by decide

/-- T-DI-4, T-DI-5, T-DI-6. -/
theorem test_setdir_out_faults : added 0x20 inited = some ([], .faulted (.busContention 1#5), 1#5) ∧
    added 0x20 s7Strobe = some ([], .faulted (.busContention 9#5), 9#5) ∧
    added 0x20 on = some ([], .faulted (.halNotReady 0#5), 0#5) := by decide

/-- T-DI-1. -/
theorem test_setdir_in : added 0x21 s7 = some (busCfg .input, .running, 8#5) ∧ (after 0x21 s7).busDir = .input ∧
    (after 0x21 (after 0x30 s7)).busOut.toList = List.replicate 16 .unknown := by decide

/-- T-PR-1. -/
theorem test_present_low : added 0x30 { s7 with addr := 0x123456#25 } =
    some (busDrives [0, 1, 1, 0, 1, 0, 1, 0, 0, 0, 1, 0, 1, 1, 0, 0], .running, 8#5) := by decide

/-- T-PR-5, T-PR-6, T-PR-7, T-PR-8. -/
theorem test_present_low_faults :
    added 0x30 { s7 with addr := 1#25 } = some ([], .faulted (.addrInvalid 1#25), 7#5) ∧
    added 0x30 { s7 with addr := 0x1000000#25 } = some ([], .faulted (.addrInvalid 0x1000000#25), 7#5) ∧
    added 0x30 inited = some ([], .faulted (.busNotOutput 1#5), 1#5) ∧
    added 0x30 { on with addr := 1#25 } = some ([], .faulted (.halNotReady 0#5), 0#5) := by decide

/-- T-PR-1. -/
theorem test_present_high : added 0x31 { s7 with addr := 0x123456#25 } =
    some (busDrives [0, 1, 0, 0, 1, 0, 0, 0], .running, 8#5) := by decide

/-- T-PR-4 and its note on lines 8 to 15. -/
theorem test_present_high_leaves_upper_lines :
    ((after 0x31 { s7 with addr := 0xABCDEE#25 }).busOut.toList) =
      (bits [1, 1, 0, 1, 0, 1, 0, 1]).map Recorded.known ++ List.replicate 8 .unknown := by decide

/-- T-PU-1, T-PU-6. -/
theorem test_pulse_llat : added 0x40 s7 = some ([.drive 18 .high, .wait 1, .drive 18 .low], .running, 8#5) ∧
    added 0x40 { s7 with cfg := { Config.harness with latchHoldUs := 7 } } =
      some ([.drive 18 .high, .wait 7, .drive 18 .low], .running, 8#5) := by decide

/-- T-PU-8, T-PU-10. -/
theorem test_pulse_llat_faults : added 0x40 inited = some ([], .faulted (.signalUnconfigured .llat), 1#5) ∧
    added 0x40 s7Strobe = some ([], .faulted (.signalOverlap .rd), 9#5) := by decide

/-- T-PU-2; and the capture of R72, address 0x123456. -/
theorem test_pulse_hlat : added 0x41 s7 = some ([.drive 19 .high, .wait 1, .drive 19 .low], .running, 8#5) ∧
    (after 0x41 (after 0x31 { s7 with addr := 0x123456#25 })).devA.high = some 0x12#8 := by decide

/-- T-PU-3, T-PU-7. -/
theorem test_pulse_rd : added 0x42 s7In = some ([.drive 20 .low, .wait 1, .drive 20 .high], .running, 9#5) ∧
    added 0x42 s7 = some ([], .faulted (.busContention 7#5), 7#5) := by decide

/-- T-PU-4. -/
theorem test_pulse_wr : added 0x43 s7 = some ([.drive 21 .high, .wait 1, .drive 21 .low], .running, 8#5) := by decide

/-- T-PU-5. -/
theorem test_pulse_rst : added 0x44 s7 = some ([.drive 22 .high, .wait 1, .drive 22 .low], .running, 8#5) := by decide

/-- T-AS-4, T-AS-5. -/
theorem test_assert_llat : added 0x50 s7 = some ([.drive 18 .high], .running, 8#5) ∧
    (after 0x50 s7).ctl.llat = .known .high ∧
    added 0x42 (after 0x50 s7) = some ([], .faulted (.signalOverlap .llat), 8#5) := by decide

/-- R150, s = 1. -/
theorem test_assert_hlat : added 0x51 s7 = some ([.drive 19 .high], .running, 8#5) := by decide

/-- T-AS-1, T-AS-2, T-AS-3. -/
theorem test_assert_rd : added 0x52 s7In = some ([.drive 20 .low], .running, 9#5) ∧
    (after 0x52 s7In).ctl.rd = .known .low ∧
    added 0x52 s7 = some ([], .faulted (.busContention 7#5), 7#5) ∧
    added 0x52 s7Strobe = some ([], .faulted (.signalOverlap .rd), 9#5) := by decide

/-- T-AS-6. -/
theorem test_assert_rd_unconfigured :
    added 0x52 (after 0x12 inited) = some ([], .faulted (.signalUnconfigured .llat), 2#5) := by decide

/-- R150, s = 3. -/
theorem test_assert_wr : added 0x53 s7 = some ([.drive 21 .high], .running, 8#5) := by decide

/-- R150, s = 4. -/
theorem test_assert_rst : added 0x54 s7 = some ([.drive 22 .high], .running, 8#5) := by decide

/-- T-DA-4. -/
theorem test_deassert_llat : added 0x60 (after 0x12 inited) = some ([], .faulted (.signalUnconfigured .llat), 2#5) ∧
    added 0x60 s7 = some ([.drive 18 .low], .running, 8#5) := by decide

/-- R155, s = 1. -/
theorem test_deassert_hlat : added 0x61 s7 = some ([.drive 19 .low], .running, 8#5) := by decide

/-- T-DA-1, T-DA-2. -/
theorem test_deassert_rd : added 0x62 s7 = some ([.drive 20 .high], .running, 8#5) ∧
    (after 0x62 s7Strobe).ctl = s7.ctl := by decide

/-- T-DA-3, T-DA-5. -/
theorem test_deassert_rd_own_signal_only : added 0x62 inited = some ([], .faulted (.signalUnconfigured .rd), 1#5) ∧
    added 0x62 (after 0x12 inited) = some ([.drive 20 .high], .running, 3#5) := by decide

/-- R155, s = 3. -/
theorem test_deassert_wr : added 0x63 s7 = some ([.drive 21 .low], .running, 8#5) := by decide

/-- R155, s = 4. -/
theorem test_deassert_rst : added 0x64 s7 = some ([.drive 22 .low], .running, 8#5) := by decide

/-- T-SE-2, T-SE-3. -/
theorem test_settle :
    added 0x70 { s7 with cfg := { Config.harness with strobeSettleUs := 5 } } = some ([.wait 5], .running, 8#5) ∧
    added 0x70 on = some ([], .faulted (.halNotReady 0#5), 0#5) := by decide

/-- The levels the HAL will give. -/
def answering (bs : List Nat) (s : State) : State := { s with halIn := { s.halIn with levels := bits bs } }

/-- T-SA-3, T-SA-4, T-SA-5. -/
theorem test_sample_packs :
    (after 0x80 (answering [0, 0, 0, 0, 0, 0, 0, 0, 0, 0, 0, 0, 0, 0, 0, 1] s7In)).word = 0x8000#16 ∧
    (after 0x80 (answering [1, 0, 0, 0, 0, 0, 0, 0, 0, 0, 0, 0, 0, 0, 0, 0] s7In)).word = 0x0001#16 ∧
    (after 0x80 (answering [0, 0, 1, 0, 1, 1, 0, 0, 0, 1, 0, 0, 1, 0, 0, 0] s7In)).word = 0x1234#16 ∧
    (after 0x80 (answering [0, 0, 1, 0, 1, 1, 0, 0, 0, 1, 0, 0, 1, 0, 0, 0] s7In)).wvalid = true := by decide

/-- T-SA-8; and R72 with M(0x000002) = 0xBEEF, program P1. -/
theorem test_sample_device : added 0x80 s7 = some ([], .faulted (.busNotInput 7#5), 7#5) ∧
    (after 0x80 { s7Strobe with devA := { low := some 2#16, high := some 0#8 }, deviceRom := [(2, 0xBEEF#16)] }).word =
      0xBEEF#16 := by decide

/-- T-EM-2, T-EM-6. -/
theorem test_emit :
    added 0x90 { inited with addr := 0xFFFFFE#25, word := 0x00FF#16, wvalid := true } =
      some ([.out 0xFFFFFE#24 0x00FF#16], .running, 2#5) ∧
    (after 0x90 { shut with word := 0x1234#16, wvalid := true }).out = [(0#24, 0x1234#16)] := by decide

/-- T-EM-3, T-EM-4. -/
theorem test_emit_faults : added 0x90 s7 = some ([], .faulted (.wordUnwritten 7#5), 7#5) ∧
    added 0x90 { s7 with addr := 3#25, wvalid := true } = some ([], .faulted (.addrInvalid 3#25), 7#5) := by decide

/-- ADVANCE from pc 0 with `LOOP_PC` 0: the address and `pc` after it. -/
def advanced (bank a : Addr) : Addr × MicroPc :=
  let t := after 0xA0 { on with addr := a, cfg := { Config.harness with bankSize := bank, loopPc := 0#5 } }
  (t.addr, t.pc)

/-- T-AD-1, T-AD-2, T-AD-3, T-AD-4. -/
theorem test_advance : advanced 0x10#25 0#25 = (2#25, 0#5) ∧ advanced 0x10#25 0x0E#25 = (0x10#25, 1#5) ∧
    advanced 0x1000000#25 0xFFFFFC#25 = (0xFFFFFE#25, 0#5) ∧
    advanced 0x1000000#25 0xFFFFFE#25 = (0x1000000#25, 1#5) := by decide

/-- T-AD-5, T-AD-6, T-AD-7; and T-EM-5 for `wvalid`. -/
theorem test_advance_edges : advanced 2#25 0#25 = (2#25, 1#5) ∧ advanced 0x10#25 0x10#25 = (0x12#25, 1#5) ∧
    advanced 0x10#25 0x1FFFFFE#25 = (0#25, 0#5) ∧ (after 0xA0 { on with wvalid := true }).wvalid = false := by decide

/-- T-SH-1, T-SH-2, T-SH-4. -/
theorem test_shutdown : added 0xB0 inited = some ([.shutdown], .running, 2#5) ∧ (after 0xB0 inited).hal = .shut ∧
    added 0xB0 shut = some ([], .faulted (.halNotReady 2#5), 2#5) ∧
    added 0xB0 on = some ([], .faulted (.halNotReady 0#5), 0#5) := by decide

/-- T-HA-1. -/
theorem test_halt : added 0xC0 on = some ([], .halted 0#8, 0#5) := by decide

/-- T-DE-20, T-FO-5. -/
theorem test_fetch_illegal : added 0x15 on = some ([], .faulted (.illegalOp 0x15#8), 0#5) ∧
    added 0xD0 on = some ([], .faulted (.illegalOp 0xD0#8), 0#5) := by decide

/-- P7. -/
theorem test_fetch_past_rom :
    step { inited with microRom := [0x00#8] } =
      .next { inited with microRom := [0x00#8], status := .faulted (.pcRange 1#5) } := by rfl

/-- T-CO-1, T-CO-8 and the shape of T-CO-2. -/
theorem test_counts : halEventCount (bootEvents Config.harness) = 27 ∧
    halEventCount (cycleEvents Config.harness 0#25 (fun _ => .low)) = 81 := by
  constructor <;> rfl

/-- V8. -/
theorem test_output_line : (outputLine .upper 0xFFFFFE#24 0x00FF#16).toList =
      ['0', 'x', 'F', 'F', 'F', 'F', 'F', 'E', ':', ' ', '0', 'x', '0', '0', 'F', 'F', '\n'] ∧
    (outputLine .lower 0xFFFFFE#24 0x00FF#16).toList =
      ['0', 'x', 'f', 'f', 'f', 'f', 'f', 'e', ':', ' ', '0', 'x', '0', '0', 'f', 'f', '\n'] := by
  constructor <;> rfl

/-- The canonical form of the device's content, at reset and after a write; an odd address and a repeated one are refused. -/
theorem test_memory_form : Memory.wf State.reset.deviceRom = true ∧
    Memory.wf (Memory.write [(2, 0xBEEF#16)] 0 0x1234#16) = true ∧ Memory.wf [(1, 0#16)] = false ∧
    Memory.wf [(2, 0#16), (2, 1#16)] = false := by decide

/-! ### Witnesses: each shows a state and operands that meet the hypotheses of the statement it is named after -/

theorem witness_DecodedWordIsTheEncoding : decode 0x52#8 = .ok .assertRd := by decide

theorem witness_LegalWordsAreExactlyThirtyOne : { on with microRom := [0xD0#8] }.configured = true ∧
    on.status = .running ∧
    ({ on with microRom := [0xD0#8] } : State).microRom[on.pc.toNat]? = some 0xD0#8 ∧
    0xD0#8 ∉ ([0x00, 0x10, 0x11, 0x12, 0x13, 0x14, 0x20, 0x21, 0x30, 0x31, 0x40, 0x41, 0x42, 0x43, 0x44, 0x50, 0x51, 0x52,
      0x53, 0x54, 0x60, 0x61, 0x62, 0x63, 0x64, 0x70, 0x80, 0x90, 0xA0, 0xB0, 0xC0] : List OpWord) := by decide

theorem witness_StepRunsDecodedInstruction : s7.configured = true ∧ s7.status = .running ∧
    s7.microRom[s7.pc.toNat]? = some 0x30#8 ∧ decode 0x30#8 = .ok .presentLow := by decide

theorem witness_PlacedWordIsRunNext : (s7.withFetchWord 8 (0xC0#8).toNat).configured = true ∧ s7.status = .running ∧
    decode 0xC0#8 = .ok .halt := by decide

theorem witness_FetchPastRomFaults : { s7 with pc := 21#5 }.configured = true ∧ { s7 with pc := 21#5 }.status = .running ∧
    { s7 with pc := 21#5 }.microRom.length ≤ { s7 with pc := 21#5 }.pc.toNat := by decide

theorem witness_StoppedBlockStaysAsItIs : { s7 with status := .halted 0#8 }.configured = true ∧
    { s7 with status := .halted 0#8 }.status ≠ .running := by decide

/-- The two ways to be refused, and the two ways to run: `LOOP_PC` 7, or a test program's micro-ROM. -/
theorem witness_InvalidConfigurationIsRefused : { s7 with cfg := { s7.cfg with bankSize := 0#25 } }.cfg.valid = false ∧
    (s7.microRom = canonicalRom ∧ { s7.cfg with loopPc := 8#5 }.loopPc ≠ 7#5) ∧
    (s7.cfg.valid = true ∧ s7.cfg.loopPc = 7#5) ∧
    ({ s7.cfg with loopPc := 1#5 }.valid = true ∧ [0x00#8, 0xA0#8, 0xB0#8, 0xC0#8] ≠ canonicalRom) := by decide

/-- One state for each of the three clauses. -/
theorem witness_InitBringsUpTheHalOrHalts : (on.hal = .uninit ∧ on.halIn.initDraw = .ok) ∧
    (onFail.hal = .uninit ∧ onFail.halIn.initDraw = .fail) ∧ s7.hal ≠ .uninit := by decide

theorem witness_CtlidleDrivesTheIdleLevel : (0b00010010#8, Instr.ctlidleRd, Signal.rd, Level.high) ∈
      ([(0b00010000#8, .ctlidleLlat, .llat, .low), (0b00010001#8, .ctlidleHlat, .hlat, .low),
        (0b00010010#8, .ctlidleRd, .rd, .high), (0b00010011#8, .ctlidleWr, .wr, .low),
        (0b00010100#8, .ctlidleRst, .rst, .low)] : List (OpWord × Instr × Signal × Level)) ∧
    inited.hal = .ready ∧ on.hal ≠ .ready ∧ shut.hal ≠ .ready := by decide

theorem witness_SetdirOutTurnsTheBusToOutput : (s7In.hal = .ready ∧ s7In.ctl.rd = .known .high) ∧ on.hal ≠ .ready ∧
    (s7Strobe.hal = .ready ∧ s7Strobe.ctl.rd ≠ .known .high) ∧ (inited.hal = .ready ∧ inited.ctl.rd ≠ .known .high) := by
  decide

theorem witness_SetdirInReleasesTheBus : s7.hal = .ready ∧ shut.hal ≠ .ready := by decide

/-- The last address of the 24-bit space, and a state for each fault. -/
theorem witness_PresentLowDrivesTheLowBits : (s7.hal = .ready ∧ s7.busDir = .output ∧
      (0xFFFFFE#25 : Addr).getLsbD 0 = false ∧ (0xFFFFFE#25 : Addr).getLsbD 24 = false) ∧
    presentFault on = some (.halNotReady 0#5) ∧ presentFault s7In = some (.busNotOutput 8#5) ∧
    presentFault { s7 with addr := 1#25 } = some (.addrInvalid 1#25) ∧
    presentFault { s7 with addr := 0x1000000#25 } = some (.addrInvalid 0x1000000#25) ∧
    presentFault { s7 with addr := 0xFFFFFE#25 } = none := by decide

theorem witness_PresentHighDrivesTheHighBits : (s7.hal = .ready ∧ s7.busDir = .output ∧ s7.addr.getLsbD 0 = false ∧
      s7.addr.getLsbD 24 = false) ∧
    presentFault inited = some (.busNotOutput 1#5) := by decide

theorem witness_PulseDrivesHoldsReturns : (0b01000010#8, Instr.pulseRd, Signal.rd, Level.low, Level.high) ∈
      ([(0b01000000#8, .pulseLlat, .llat, .high, .low), (0b01000001#8, .pulseHlat, .hlat, .high, .low),
        (0b01000010#8, .pulseRd, .rd, .low, .high), (0b01000011#8, .pulseWr, .wr, .high, .low),
        (0b01000100#8, .pulseRst, .rst, .high, .low)] : List (OpWord × Instr × Signal × Level × Level)) ∧
    (s7In.hal = .ready ∧ s7In.ctl = ctlAllIdle ∧ (Signal.rd = .rd → s7In.busDir = .input)) ∧
    (s7.hal = .ready ∧ s7.ctl = ctlAllIdle ∧ (Signal.llat = .rd → s7.busDir = .input)) ∧
    activationFault on .llat = some (.halNotReady 0#5) ∧ activationFault inited .llat = some (.signalUnconfigured .llat) ∧
    activationFault s7Strobe .hlat = some (.signalOverlap .rd) ∧ activationFault s7 .rd = some (.busContention 7#5) ∧
    activationFault s7 .rst = none := by decide

theorem witness_AssertDrivesTheActiveLevel : (0b01010010#8, Instr.assertRd, Signal.rd, Level.low) ∈
      ([(0b01010000#8, .assertLlat, .llat, .high), (0b01010001#8, .assertHlat, .hlat, .high),
        (0b01010010#8, .assertRd, .rd, .low), (0b01010011#8, .assertWr, .wr, .high),
        (0b01010100#8, .assertRst, .rst, .high)] : List (OpWord × Instr × Signal × Level)) ∧
    (s7In.hal = .ready ∧ s7In.ctl = ctlAllIdle ∧ (Signal.rd = .rd → s7In.busDir = .input)) ∧
    (s7.hal = .ready ∧ s7.ctl = ctlAllIdle ∧ (Signal.llat = .rd → s7.busDir = .input)) ∧
    activationFault s7 .rd = some (.busContention 7#5) ∧
    activationFault { s7In with ctl := { s7.ctl with rst := .unknown, wr := .known .high } } .rd =
      some (.signalUnconfigured .rst) := by decide

theorem witness_DeassertDrivesTheIdleLevel : (0b01100010#8, Instr.deassertRd, Signal.rd, Level.high) ∈
      ([(0b01100000#8, .deassertLlat, .llat, .low), (0b01100001#8, .deassertHlat, .hlat, .low),
        (0b01100010#8, .deassertRd, .rd, .high), (0b01100011#8, .deassertWr, .wr, .low),
        (0b01100100#8, .deassertRst, .rst, .low)] : List (OpWord × Instr × Signal × Level)) ∧
    (s7.hal = .ready ∧ s7.ctl.get .rd ≠ .unknown) ∧ on.hal ≠ .ready ∧
    (inited.hal = .ready ∧ inited.ctl.get .rd = .unknown) := by decide

theorem witness_SettleWaitsTheSettleInterval : s7.hal = .ready ∧ on.hal ≠ .ready := by decide

theorem witness_SamplePacksTheSixteenLevels : (s7In.hal = .ready ∧ s7In.busDir = .input) ∧ on.hal ≠ .ready ∧
    (s7.hal = .ready ∧ s7.busDir ≠ .input) ∧ (inited.hal = .ready ∧ inited.busDir ≠ .input) := by decide

theorem witness_EmitYieldsThePair :
    (({ s7 with wvalid := true }).wvalid = true ∧ s7.addr.getLsbD 0 = false ∧ s7.addr.getLsbD 24 = false) ∧
    s7.wvalid = false ∧ (1#25 : Addr).getLsbD 0 = true ∧ (0x1000000#25 : Addr).getLsbD 24 = true := by decide

/-- The clauses meet at `BANK_SIZE`. -/
theorem witness_AdvanceAddsTwoAndTestsTheBank :
    ((0x10#25 : Addr).toNat = (({ s7 with addr := 0xE#25 } : State).addr.toNat + 2) % 2 ^ 25 ∧
      s7.cfg.bankSize.toNat ≤ (0x10#25 : Addr).toNat) ∧
    ((0xE#25 : Addr).toNat = (({ s7 with addr := 0xC#25 } : State).addr.toNat + 2) % 2 ^ 25 ∧
      (0xE#25 : Addr).toNat < s7.cfg.bankSize.toNat) := by decide

theorem witness_ShutdownTearsTheHalDown : s7.hal = .ready ∧ shut.hal ≠ .ready := by decide

/-- The bus after PRESENT LOW and PRESENT HIGH of 0x123456, the bus as reset leaves it. -/
theorem witness_LatchCapturesTheBusBits :
    (∀ i : Fin 16, (busLow 0x123456#25)[i] = .known (if (0x3456#16).getLsbD i.val then .high else .low)) ∧
    (∀ i : Fin 16, i.val < 8 → (busHigh 0x123456#25)[i] = .known (if (0x12#8).getLsbD i.val then .high else .low)) ∧
    (∃ i : Fin 16, (busHigh 0x123456#25)[i] = .unknown) ∧ (∃ i : Fin 16, i.val < 8 ∧ s7.busOut[i] = .unknown) := by decide

/-- A state in which the device drives the bus, and one in which it does not. -/
theorem witness_SampledLevelsComeFromDeviceOrDraws : (s7Strobe.ctl.rd = .known .low ∧ s7Strobe.busDir = .input ∧
      (0x0002#16).getLsbD 0 = false ∧ Memory.read [(2, 0xBEEF#16)] ((0#8).toNat * 65536 + (0x0002#16).toNat) = some 0xBEEF#16) ∧
    s7In.ctl.rd ≠ .known .low := by decide

theorem witness_SampleAcceptsEveryWord : s7In.hal = .ready ∧ s7In.busDir = .input ∧ s7In.deviceRom = [] ∧
    (answering [0, 0, 1, 0, 1, 1, 0, 0, 0, 1, 0, 0, 1, 0, 0, 0] s7In).halIn.levels =
      (List.range 16).map (fun i => if (0x1234#16).getLsbD i then .high else .low) := by decide

theorem witness_OnlyAdvanceWritesTheAddress : (∃ t, exec .presentLow s7 = .next t) ∧ ∃ t, exec .advance s7 = .next t :=
  ⟨⟨_, rfl⟩, _, rfl⟩

theorem witness_RegistersHaveOnlyTheirWriters : ∃ t, exec .pulseLlat s7 = .next t := ⟨_, rfl⟩

/-- An op that goes on, one that stops the block, and ADVANCE. -/
theorem witness_PcStepsByOneOrStays : s7.status = .running ∧ (∃ t, exec .presentLow s7 = .next t ∧ t.status = .running) ∧
    (∃ t, exec .halt s7 = .next t ∧ t.status ≠ .running) ∧ ∃ t, exec .advance s7 = .next t ∧ t.status = .running :=
  ⟨rfl, ⟨_, rfl, rfl⟩, ⟨_, rfl, fun h => (nomatch h)⟩, _, rfl, rfl⟩

theorem witness_HalOpsFaultUnlessReady : shut.hal ≠ .ready ∧ on.hal ≠ .ready ∧ Instr.sample ≠ .init ∧
    Instr.sample ≠ .emit ∧ Instr.sample ≠ .advance ∧ Instr.sample ≠ .halt := by decide

theorem witness_FaultChangesOnlyTheStatus :
    ∃ t, step { s7 with busDir := .input } = .next t ∧ t.status = .faulted (.busNotOutput 7#5) := ⟨_, rfl, rfl⟩

theorem witness_TraceAndOutputOnlyGrow : ∃ t, runSteps 1 s7 = .next t := ⟨_, rfl⟩

theorem witness_PulseAlwaysEndsIdle : (Instr.pulseLlat, Signal.llat, Level.low) ∈
      ([(.pulseLlat, .llat, .low), (.pulseHlat, .hlat, .low), (.pulseRd, .rd, .high), (.pulseWr, .wr, .low),
        (.pulseRst, .rst, .low)] : List (Instr × Signal × Level)) ∧
    ∃ t, exec .pulseLlat s7 = .next t ∧ ∀ f, t.status ≠ .faulted f := ⟨by decide, _, rfl, fun _ h => nomatch h⟩

/-- Two states that differ in the word and in the levels to come. -/
theorem witness_ControlIgnoresSampledValues :
    SameControl s7 (answering [1] { s7 with word := 0xAAAA#16 }) ∧ s7 ≠ answering [1] { s7 with word := 0xAAAA#16 } ∧
    ∃ t, step s7 = .next t :=
  ⟨⟨rfl, rfl, rfl, rfl, rfl, rfl, rfl, rfl, rfl, rfl, rfl, rfl, rfl, rfl, rfl⟩, by decide, _, rfl⟩

/-- S7 with the trace that leads to it. -/
theorem witness_StepKeepsBlockInv :
    BlockInv { s7 with trace := bootEvents Config.harness } ∧
    ∃ t, step { s7 with trace := bootEvents Config.harness } = .next t := by
  refine ⟨⟨fun _ => rfl, fun h => absurd rfl h, ?_, fun h => (nomatch h), rfl, fun _ h => (nomatch h), rfl, rfl⟩, _, rfl⟩
  intro g h
  cases g <;> cases h <;> decide

theorem witness_BootReachesTheInitialState : Config.harness.valid = true ∧ Config.harness.loopPc = 7#5 ∧
    on.halIn.initDraw = .ok := by decide

theorem witness_InitFailureEndsTheRun : Config.harness.valid = true ∧ Config.harness.loopPc = 7#5 ∧
    onFail.halIn.initDraw = .fail := by decide

/-- The first and the last read cycle of the bank. -/
theorem witness_ReadCycleRunsToItsEnd : CycleStart s7 ∧ CycleStart { s7 with addr := 0xE#25 } :=
  ⟨⟨by decide, rfl, rfl, rfl, rfl, by decide, by decide, rfl, rfl, rfl⟩,
    by decide, rfl, rfl, rfl, rfl, by decide, by decide, rfl, rfl, rfl⟩

/-- The start of the second read cycle. -/
theorem witness_StepKeepsCanonicalInv :
    CanonicalInv { s7 with addr := 2#25, out := [(0#24, 0xAAAA#16)] } ∧
    ∃ t, step { s7 with addr := 2#25, out := [(0#24, 0xAAAA#16)] } = .next t := by
  refine ⟨⟨by decide, rfl, rfl, .inl ⟨rfl, ⟨by decide, by decide, fun _ _ => rfl, by decide, fun _ => rfl, by decide,
    by decide, ?_, by decide, by decide, by decide, by decide, by decide, by decide⟩⟩⟩, _, rfl⟩
  intro g _ _
  cases g <;> rfl

theorem witness_ResetHasCanonicalInv : Config.harness.valid = true ∧ Config.harness.loopPc = 7#5 := by decide

theorem witness_CanonicalRunNeverFaults : Config.production.valid = true ∧ Config.production.loopPc = 7#5 := by decide

theorem witness_EmittedAddressesStrictlyIncrease : Config.harness.valid = true ∧ Config.harness.loopPc = 7#5 ∧
    ∃ t, runSteps 1 (startOf Config.harness on.halIn []) = .next t := ⟨by decide, rfl, _, rfl⟩

theorem witness_WholeRunReadsTheBank : Config.harness.valid = true ∧ Config.harness.loopPc = 7#5 ∧
    on.halIn.initDraw = .ok ∧ Config.harness.bankSize.toNat = 2 * 8 := by decide

/-- Program P1: a bank of 4 and the content 0x1234, 0xBEEF. -/
theorem witness_IdealDeviceRunEmitsItsContent :
    { Config.harness with bankSize := 4#25 }.valid = true ∧ { Config.harness with bankSize := 4#25 }.loopPc = 7#5 ∧
    on.halIn.initDraw = .ok ∧ { Config.harness with bankSize := 4#25 }.bankSize.toNat = 2 * 2 ∧
    ∀ k, k < 2 → Memory.read [(0, 0x1234#16), (2, 0xBEEF#16)] (2 * k) = some (if k = 0 then 0x1234#16 else 0xBEEF#16) := by
  decide

end Sys2Proof.Tests
end

/-! PROOFS. Along a run the trace and the output only grow (spec/00_scope.md R14, spec/10_state.md R46), and what no op
writes stays: the configuration, the micro-ROM and the device's content (spec/20_memory.md R61, R72). -/

namespace Sys2Proof.Machine

/-! ### Runs -/

/-- A run of n + 1 steps is one step and a run of n. -/
theorem runSteps_succ_cases {n : Nat} {s t : State} (h : runSteps (n + 1) s = .next t) :
    ∃ u, step s = .next u ∧ runSteps n u = .next t := by
  unfold runSteps at h
  cases hs : step s with
  | next u => exact ⟨u, rfl, by simpa only [hs] using h⟩
  | fault f => exact nomatch f
  | refused r => simp [hs] at h

/-- The induction over a run: what every step keeps, a run of any length keeps. -/
theorem runSteps_preserves {P : State → Prop} (hstep : ∀ s t, P s → step s = .next t → P t) {n : Nat} {s t : State}
    (hs : P s) (h : runSteps n s = .next t) : P t := by
  induction n generalizing s with
  | zero => cases h; exact hs
  | succ n ih =>
    obtain ⟨u, hu, hrun⟩ := runSteps_succ_cases h
    exact ih (hstep s u hs hu) hrun

/-! ### What only grows, and what nothing writes -/

/-- `t` can come after `s`: its trace and output extend those of `s`, and what no op writes is the same. -/
structure State.GrowsTo (s t : State) : Prop where
  trace : s.trace <+: t.trace
  out : s.out <+: t.out
  cfg : t.cfg = s.cfg
  microRom : t.microRom = s.microRom
  deviceRom : t.deviceRom = s.deviceRom

theorem State.GrowsTo.refl (s : State) : s.GrowsTo s := by constructor <;> simp

theorem State.GrowsTo.trans {s t u : State} (hst : s.GrowsTo t) (htu : t.GrowsTo u) : s.GrowsTo u :=
  ⟨hst.trace.trans htu.trace, hst.out.trans htu.out, htu.cfg.trans hst.cfg, htu.microRom.trans hst.microRom,
    htu.deviceRom.trans hst.deviceRom⟩

theorem takeFault_growsTo (s : State) (f : ModelFault) : s.GrowsTo (s.takeFault f) := by constructor <;> simp

/-! ### The effects the ops share -/

theorem initEffect_growsTo (s : State) : s.GrowsTo (initEffect s) := by
  unfold initEffect
  split <;> constructor <;> simp

theorem ctlidleEffect_growsTo (g : Signal) (s : State) : s.GrowsTo (ctlidleEffect g s) := by
  constructor <;> simp [ctlidleEffect]

theorem setdirEffect_growsTo (d : Direction) (s : State) : s.GrowsTo (setdirEffect d s) := by
  constructor <;> simp [setdirEffect]

theorem pulseEffect_growsTo (g : Signal) (s : State) : s.GrowsTo (pulseEffect g s) := by
  constructor <;> simp [pulseEffect]

theorem driveEffect_growsTo (g : Signal) (v : Level) (s : State) : s.GrowsTo (driveEffect g v s) := by
  constructor <;> simp [driveEffect]

theorem advanceEffect_growsTo (s : State) : s.GrowsTo (advanceEffect s) := by
  unfold advanceEffect
  split <;> constructor <;> simp

/-! ### Ops, steps, runs -/

/-- No op shortens or rewrites a list: the shared effects by their lemmas, the ops with an effect of their own here. -/
theorem effectOf_growsTo (i : Instr) (s : State) : s.GrowsTo (effectOf i s) := by
  cases i with
  | init => exact initEffect_growsTo s
  | ctlidleLlat | ctlidleHlat | ctlidleRd | ctlidleWr | ctlidleRst => exact ctlidleEffect_growsTo _ s
  | setdirOut | setdirIn => exact setdirEffect_growsTo _ s
  | pulseLlat | pulseHlat | pulseRd | pulseWr | pulseRst => exact pulseEffect_growsTo _ s
  | assertLlat | assertHlat | assertRd | assertWr | assertRst => exact driveEffect_growsTo _ _ s
  | deassertLlat | deassertHlat | deassertRd | deassertWr | deassertRst => exact driveEffect_growsTo _ _ s
  | advance => exact advanceEffect_growsTo s
  | presentLow | presentHigh | settle | sample | emit | shutdown | halt => constructor <;> simp [effectOf]

theorem exec_growsTo {i : Instr} {s t : State} (h : exec i s = .next t) : s.GrowsTo t := by
  rcases exec_cases h with ⟨-, rfl⟩ | ⟨c, -, -, rfl⟩
  · exact effectOf_growsTo i s
  · exact takeFault_growsTo s c.fault

theorem step_growsTo {s t : State} (h : step s = .next t) : s.GrowsTo t := by
  obtain ⟨-, ⟨-, rfl⟩ | ⟨-, i, -, hexec⟩ | ⟨-, f, -, rfl⟩⟩ := step_cases h
  · exact .refl t
  · exact exec_growsTo hexec
  · exact takeFault_growsTo s f

theorem runSteps_growsTo {n : Nat} {s t : State} (h : runSteps n s = .next t) : s.GrowsTo t :=
  runSteps_preserves (P := s.GrowsTo) (fun _ _ hu hstep => hu.trans (step_growsTo hstep)) (.refl s) h

/-- Settles O36: growth is reflexive and transitive and holds of one step, so it holds of a run, by the induction over its
steps. -/
theorem traceAndOutputOnlyGrow : Obligations.TraceAndOutputOnlyGrow := by
  intro n s t h
  obtain ⟨htrace, hout, hcfg, hrom, hdevice⟩ := runSteps_growsTo h
  exact ⟨htrace, hout, hcfg, hrom, hdevice⟩

end Sys2Proof.Machine

/-! PROOFS. The invariant of the block under any micro-ROM (`BlockInv`): one rule per state operation, then the effects the
ops share, then ops and steps (spec/10_state.md R36, R44, R46, R68; spec/41_address_latch.md R138). -/

namespace Sys2Proof.Machine

/-! ### The HAL's lifecycle along a trace -/

theorem halAfterAll_append {h k : HalState} {es : List Event} (fs : List Event) (he : halAfterAll h es = some k) :
    halAfterAll h (es ++ fs) = halAfterAll k fs := by
  induction es generalizing h with
  | nil => cases he; rfl
  | cons e es ih =>
    simp only [List.cons_append, halAfterAll] at he ⊢
    cases hh : halAfter h e with
    | none => simp [hh] at he
    | some h' => exact ih (by simpa [hh] using he)

/-- Events of HAL calls that need a ready HAL and leave it ready (R44); none of them emits a pair. -/
def ReadyCalls (es : List Event) : Prop := ∀ e ∈ es, halAfter .ready e = some .ready ∧ e.pair? = none

theorem halAfterAll_of_readyCalls {es : List Event} (hes : ReadyCalls es) : halAfterAll .ready es = some .ready := by
  induction es with
  | nil => rfl
  | cons e es ih =>
    obtain ⟨he, hrest⟩ := List.forall_mem_cons.mp hes
    simpa only [halAfterAll, he.1] using ih hrest

theorem filterMap_pair_of_readyCalls {es : List Event} (hes : ReadyCalls es) : es.filterMap Event.pair? = [] :=
  List.filterMap_eq_nil_iff.mpr fun e he => (hes e he).2

/-! ### Control lines -/

/-- Idling one signal makes no signal active. -/
theorem CtlLines.active_of_set_idle {c : CtlLines} {g x : Signal}
    (hx : (c.set g (.known g.idle)).get x = .known x.active) : c.get x = .known x.active := by
  by_cases hxg : x = g
  · subst hxg
    rw [CtlLines.get_set_self] at hx
    exact absurd (Recorded.known.inj hx) x.idle_ne_active
  · rwa [CtlLines.get_set_of_ne c _ hxg] at hx

/-- Where all signals were idle, the one made active is the only active one. -/
theorem CtlLines.eq_of_set_active {c : CtlLines} (hidle : ∀ t : Signal, c.get t = .known t.idle) {g x : Signal} {r : Recorded}
    (hx : (c.set g r).get x = .known x.active) : x = g := by
  by_contra hxg
  rw [CtlLines.get_set_of_ne c _ hxg, hidle x] at hx
  exact x.idle_ne_active (Recorded.known.inj hx)

/-! ### One rule per state operation -/

/-- The invariant looks at seven fields of the state. -/
theorem BlockInv.of_eq {s t : State} (h : BlockInv s) (hdir : t.busDir = s.busDir) (hbus : t.busOut = s.busOut)
    (hctl : t.ctl = s.ctl) (hhal : t.hal = s.hal) (haddr : t.addr = s.addr) (hout : t.out = s.out)
    (htrace : t.trace = s.trace) : BlockInv t := by
  obtain ⟨hstrobe, hdriven, hoverlap, hquiet, heven, houtEven, hpairs, hlife⟩ := h
  constructor <;> simpa only [hdir, hbus, hctl, hhal, haddr, hout, htrace]

theorem BlockInv.takeFault {s : State} (h : BlockInv s) (f : ModelFault) : BlockInv (s.takeFault f) :=
  h.of_eq rfl rfl rfl rfl rfl rfl rfl

theorem BlockInv.nextPc {s : State} (h : BlockInv s) : BlockInv s.nextPc :=
  h.of_eq rfl rfl rfl rfl rfl rfl rfl

theorem BlockInv.jump {s : State} (h : BlockInv s) (p : MicroPc) : BlockInv (s.jump p) :=
  h.of_eq rfl rfl rfl rfl rfl rfl rfl

theorem BlockInv.haltWith {s : State} (h : BlockInv s) (code : BitVec 8) : BlockInv (s.haltWith code) :=
  h.of_eq rfl rfl rfl rfl rfl rfl rfl

theorem BlockInv.setWord {s : State} (h : BlockInv s) (w : BusWord) : BlockInv (s.setWord w) :=
  h.of_eq rfl rfl rfl rfl rfl rfl rfl

theorem BlockInv.latchDevice {s : State} (h : BlockInv s) (g : Signal) : BlockInv (s.latchDevice g) :=
  h.of_eq (by simp) (by simp) (by simp) (by simp) (by simp) (by simp) (by simp)

theorem BlockInv.bumpAddr {s : State} (h : BlockInv s) : BlockInv s.bumpAddr :=
  { h with addrEven := addr_add_two_even h.addrEven }

/-- Turning the bus forgets its levels (R36); Output needs an idle ReadStrobe (R120). -/
theorem BlockInv.setDirection {s : State} (h : BlockInv s) (hr : s.hal = .ready) {d : Direction}
    (hd : d = .output → s.ctl.rd = .known .high) : BlockInv (s.setDirection d) :=
  { h with
    strobeIdleInOutput := by
      cases d with
      | output => exact fun _ => hd rfl
      | input => exact nofun
    drivenOnlyInOutput := fun _ => rfl
    quietBeforeInit := by simp [hr] }

theorem BlockInv.setBusOut {s : State} (h : BlockInv s) (hd : s.busDir = .output) (b : Vector Recorded busWidth) :
    BlockInv (s.setBusOut b) :=
  { h with drivenOnlyInOutput := fun hne => absurd hd hne }

theorem BlockInv.setCtl_idle {s : State} (h : BlockInv s) (hr : s.hal = .ready) (g : Signal) :
    BlockInv (s.setCtl g g.idle) :=
  { h with
    strobeIdleInOutput := fun hd => by
      have hrd : s.ctl.get .rd = .known .high := h.strobeIdleInOutput hd
      cases g with
      | rd => rfl
      | llat | hlat | wr | rst => exact hrd
    noOverlap := fun _ _ hx hy => h.noOverlap _ _ (CtlLines.active_of_set_idle hx) (CtlLines.active_of_set_idle hy)
    quietBeforeInit := by simp [hr] }

/-- A signal may go active where all are idle (R138), ReadStrobe only with the bus in Input (R152). -/
theorem BlockInv.setCtl_active {s : State} (h : BlockInv s) (hr : s.hal = .ready)
    (hidle : ∀ t : Signal, s.ctl.get t = .known t.idle) {g : Signal} (hrd : g = .rd → s.busDir = .input) :
    BlockInv (s.setCtl g g.active) :=
  { h with
    strobeIdleInOutput := fun hd => by
      have hne : Signal.rd ≠ g := fun hg => by simp [hrd hg.symm] at hd
      rw [State.setCtl_ctl, ← CtlLines.get_rd, CtlLines.get_set_of_ne _ _ hne]
      exact hidle .rd
    noOverlap := fun _ _ hx hy => (CtlLines.eq_of_set_active hidle hx).trans (CtlLines.eq_of_set_active hidle hy).symm
    quietBeforeInit := by simp [hr] }

/-- HAL calls that a ready HAL allows. -/
theorem BlockInv.record {s : State} (h : BlockInv s) (hr : s.hal = .ready) {es : List Event} (hes : ReadyCalls es) :
    BlockInv (s.record es) :=
  { h with
    outIsTrace := by simp [h.outIsTrace, filterMap_pair_of_readyCalls hes]
    lifecycle := by
      rw [State.record_trace, State.record_hal, halAfterAll_append es h.lifecycle, hr, halAfterAll_of_readyCalls hes] }

theorem BlockInv.halCfg {s : State} (h : BlockInv s) (hr : s.hal = .ready) (l : Line) (d : Direction) :
    BlockInv (s.halCfg l d) := h.record hr (by simp [ReadyCalls, halAfter, Event.pair?])

theorem BlockInv.halDrive {s : State} (h : BlockInv s) (hr : s.hal = .ready) (l : Line) (v : Level) :
    BlockInv (s.halDrive l v) := h.record hr (by simp [ReadyCalls, halAfter, Event.pair?])

theorem BlockInv.halWait {s : State} (h : BlockInv s) (hr : s.hal = .ready) (n : Nat) : BlockInv (s.halWait n) :=
  h.record hr (by simp [ReadyCalls, halAfter, Event.pair?])

theorem BlockInv.halCfgBus {s : State} (h : BlockInv s) (hr : s.hal = .ready) (d : Direction) :
    BlockInv (s.halCfgBus d) := h.record hr (by simp [ReadyCalls, halAfter, Event.pair?])

theorem BlockInv.halDriveBus {s : State} (h : BlockInv s) (hr : s.hal = .ready) (n : Nat) (level : Nat → Level) :
    BlockInv (s.halDriveBus n level) := h.record hr (by simp [ReadyCalls, halAfter, Event.pair?])

theorem BlockInv.halSampleBus {s : State} (h : BlockInv s) (hr : s.hal = .ready) : BlockInv s.halSampleBus :=
  (h.record hr (es := (List.range busWidth).map fun i => .sample (s.cfg.busLine i) (s.lineLevel i))
    (by simp [ReadyCalls, halAfter, Event.pair?])).of_eq rfl rfl rfl rfl rfl rfl rfl

/-- `HAL.init()` that fails, and the diagnostic (R191). -/
theorem BlockInv.halInit_diag {s : State} (h : BlockInv s) (hu : s.hal = .uninit) (hfail : s.halIn.initDraw = .fail) :
    BlockInv (s.halInit.record [.diag]) :=
  { h with
    outIsTrace := by simp [h.outIsTrace, Event.pair?]
    lifecycle := by simp [halAfterAll_append _ h.lifecycle, hu, hfail, halAfterAll, halAfter] }

/-- `HAL.init()` that succeeds (R191). -/
theorem BlockInv.halInit_setHal {s : State} (h : BlockInv s) (hu : s.hal = .uninit) (hok : s.halIn.initDraw = .ok) :
    BlockInv (s.halInit.setHal .ready) :=
  { h with
    quietBeforeInit := by simp
    outIsTrace := by simp [h.outIsTrace, Event.pair?]
    lifecycle := by simp [halAfterAll_append _ h.lifecycle, hu, hok, halAfterAll, halAfter] }

theorem BlockInv.halShutdown_setHal {s : State} (h : BlockInv s) (hr : s.hal = .ready) :
    BlockInv (s.halShutdown.setHal .shut) :=
  { h with
    quietBeforeInit := by simp
    outIsTrace := by simp [h.outIsTrace, Event.pair?]
    lifecycle := by simp [halAfterAll_append _ h.lifecycle, hr, halAfterAll, halAfter] }

/-- An emitted address is the low part of an even counter (R68). -/
theorem BlockInv.emitPair_busAddr {s : State} (h : BlockInv s) (w : BusWord) : BlockInv (s.emitPair (busAddr s.addr) w) :=
  { h with
    outEven := by
      have heven : (busAddr s.addr).toNat % 2 = 0 := by
        have := h.addrEven
        rw [busAddr_toNat]
        omega
      simpa [or_imp, forall_and, heven] using h.outEven
    outIsTrace := by simp [h.outIsTrace, Event.pair?]
    lifecycle := by simp [halAfterAll_append _ h.lifecycle, halAfterAll, halAfter] }

/-! ### The effects the ops share -/

theorem BlockInv.initEffect {s : State} (h : BlockInv s) (hu : s.hal = .uninit) : BlockInv (initEffect s) := by
  unfold Machine.initEffect
  split
  · next hfail => exact (h.halInit_diag hu hfail).haltWith 1#8
  · next hok => exact (h.halInit_setHal hu hok).nextPc

theorem BlockInv.ctlidleEffect {s : State} (h : BlockInv s) (hr : s.hal = .ready) (g : Signal) :
    BlockInv (ctlidleEffect g s) :=
  (((h.halCfg hr _ _).halDrive hr _ _).setCtl_idle hr g).nextPc

theorem BlockInv.setdirEffect {s : State} (h : BlockInv s) (hr : s.hal = .ready) {d : Direction}
    (hd : d = .output → s.ctl.rd = .known .high) : BlockInv (setdirEffect d s) :=
  ((h.halCfgBus hr d).setDirection hr hd).nextPc

/-- DEASSERT. -/
theorem BlockInv.driveEffect_idle {s : State} (h : BlockInv s) (hr : s.hal = .ready) (g : Signal) :
    BlockInv (driveEffect g g.idle s) :=
  ((h.halDrive hr _ _).setCtl_idle hr g).nextPc

/-- ASSERT. -/
theorem BlockInv.driveEffect_active {s : State} (h : BlockInv s) {g : Signal}
    (hc : ∀ c ∈ activationChecks s g, c.holds = true) : BlockInv (driveEffect g g.active s) := by
  obtain ⟨hr, hidle, hrd⟩ := (activationChecks_hold s g).mp hc
  exact ((h.halDrive hr _ _).setCtl_active hr hidle hrd).nextPc

/-- The signal goes active, the device captures the bus, the signal goes back to idle (R136). -/
theorem BlockInv.pulseEffect {s : State} (h : BlockInv s) {g : Signal}
    (hc : ∀ c ∈ activationChecks s g, c.holds = true) : BlockInv (pulseEffect g s) := by
  obtain ⟨hr, hidle, hrd⟩ := (activationChecks_hold s g).mp hc
  have hactive := (h.halDrive hr (s.cfg.line g) g.active).setCtl_active hr hidle hrd
  have hheld := (hactive.latchDevice g).halWait (by simpa using hr) s.cfg.latchHoldUs
  exact ((hheld.halDrive (by simpa using hr) (s.cfg.line g) g.idle).setCtl_idle (by simpa using hr) g).nextPc

theorem BlockInv.advanceEffect {s : State} (h : BlockInv s) : BlockInv (advanceEffect s) := by
  unfold Machine.advanceEffect
  split
  · exact h.bumpAddr.nextPc
  · exact h.bumpAddr.jump _

/-! ### Ops and steps -/

/-- An op whose checks hold keeps the invariant: each case takes from the checks what the rule of its effect asks. -/
theorem BlockInv.effectOf {i : Instr} {s : State} (h : BlockInv s) (hc : ∀ c ∈ checksOf i s, c.holds = true) :
    BlockInv (effectOf i s) := by
  cases i with
  | init => exact h.initEffect (by simpa [checksOf] using hc)
  | ctlidleLlat | ctlidleHlat | ctlidleRd | ctlidleWr | ctlidleRst =>
    exact h.ctlidleEffect (by simpa [checksOf] using hc) _
  | setdirOut =>
    obtain ⟨hr, hrd⟩ : s.hal = .ready ∧ s.ctl.rd = .known .high := by simpa [checksOf] using hc
    exact h.setdirEffect hr fun _ => hrd
  | setdirIn => exact h.setdirEffect (by simpa [checksOf] using hc) nofun
  | presentLow | presentHigh =>
    obtain ⟨hr, hd, -⟩ : s.hal = .ready ∧ s.busDir = .output ∧ _ := by simpa [checksOf] using hc
    exact ((h.halDriveBus hr _ _).setBusOut hd _).nextPc
  | pulseLlat | pulseHlat | pulseRd | pulseWr | pulseRst => exact h.pulseEffect hc
  | assertLlat | assertHlat | assertRd | assertWr | assertRst => exact h.driveEffect_active hc
  | deassertLlat | deassertHlat | deassertRd | deassertWr | deassertRst =>
    obtain ⟨hr, -⟩ : s.hal = .ready ∧ _ := by simpa [checksOf] using hc
    exact h.driveEffect_idle hr _
  | settle => exact (h.halWait (by simpa [checksOf] using hc) _).nextPc
  | sample =>
    obtain ⟨hr, -⟩ : s.hal = .ready ∧ _ := by simpa [checksOf] using hc
    exact ((h.halSampleBus hr).setWord _).nextPc
  | emit => exact (h.emitPair_busAddr s.word).nextPc
  | advance => exact h.advanceEffect
  | shutdown => exact (h.halShutdown_setHal (by simpa [checksOf] using hc)).nextPc
  | halt => exact h.haltWith 0#8

theorem BlockInv.exec {i : Instr} {s t : State} (h : BlockInv s) (he : exec i s = .next t) : BlockInv t := by
  rcases exec_cases he with ⟨hc, rfl⟩ | ⟨c, -, -, rfl⟩
  · exact h.effectOf hc
  · exact h.takeFault c.fault

/-- Settles O39, by the cases of a step: a stopped block, an op, a fetch fault. -/
theorem stepKeepsBlockInv : Obligations.StepKeepsBlockInv := by
  intro s t h hstep
  obtain ⟨-, ⟨-, rfl⟩ | ⟨-, i, -, hexec⟩ | ⟨-, f, -, rfl⟩⟩ := step_cases hstep
  · exact h
  · exact h.exec hexec
  · exact h.takeFault f

theorem resetWith_blockInv (c : Configuration) : BlockInv (State.resetWith c) where
  strobeIdleInOutput := nofun
  drivenOnlyInOutput _ := rfl
  noOverlap g _ hg := by simp [State.resetWith] at hg
  quietBeforeInit _ := ⟨rfl, CtlLines.get_allUnknown⟩
  addrEven := rfl
  outEven := nofun
  outIsTrace := rfl
  lifecycle := rfl

/-- Settles O40: at reset nothing is driven, configured, emitted or called. -/
theorem resetHasBlockInv : Obligations.ResetHasBlockInv :=
  ⟨resetWith_blockInv, resetWith_blockInv Config.production⟩

end Sys2Proof.Machine

/-! PROOFS. Who writes which register (spec/10_state.md R30, R31, R33): what the effect of each op leaves unchanged, then
the same of `exec`, whose faults write nothing but the status. -/

namespace Sys2Proof.Machine

/-! ### The two effects that branch -/

/-- INIT writes no more than `pc`, `hal`, the status, the trace and the HAL's answers (R191). -/
theorem initEffect_writes (s : State) : initEffect s = { s with
    pc := (initEffect s).pc, hal := (initEffect s).hal, status := (initEffect s).status
    trace := (initEffect s).trace, halIn := s.halIn.afterInit } := by
  unfold initEffect
  split <;> rfl

theorem initEffect_of_ok {s : State} (h : s.halIn.initDraw = .ok) : initEffect s = (s.halInit.setHal .ready).nextPc := by
  simp [initEffect, h]

theorem initEffect_of_fail {s : State} (h : s.halIn.initDraw = .fail) :
    initEffect s = (s.halInit.record [.diag]).haltWith 1#8 := by
  simp [initEffect, h]

/-- Both branches of ADVANCE bump the address; the test only chooses the next index (R170). -/
theorem advanceEffect_eq (s : State) : advanceEffect s =
    s.bumpAddr.jump (if endOfRange s.cfg (s.addr + 2#25) then s.pc + 1#5 else s.cfg.loopPc) := by
  unfold advanceEffect
  split <;> rfl

/-! ### The "written by" column of R30 -/

/-- `t` differs from `s` in no register that the op is not named for (R30, R33, R72); `pc` has its own rule (R31). -/
structure WritesOnlyOwn (i : Instr) (s t : State) : Prop where
  addr : i ≠ .advance → t.addr = s.addr
  word : i ≠ .sample → t.word = s.word
  wvalid : i ≠ .sample → i ≠ .advance → t.wvalid = s.wvalid
  busDir : i ≠ .setdirOut → i ≠ .setdirIn → t.busDir = s.busDir
  busOut : i ≠ .setdirOut → i ≠ .setdirIn → i ≠ .presentLow → i ≠ .presentHigh → t.busOut = s.busOut
  ctl : i ∈ ([.init, .setdirOut, .setdirIn, .presentLow, .presentHigh, .settle, .sample, .emit, .advance, .shutdown, .halt] :
    List Instr) → t.ctl = s.ctl
  hal : i ≠ .init → i ≠ .shutdown → t.hal = s.hal
  status : i ≠ .init → i ≠ .halt → t.status = s.status ∨ ∃ f, t.status = .faulted f
  out : i ≠ .emit → t.out = s.out
  devA : i ≠ .pulseLlat → i ≠ .pulseHlat → t.devA = s.devA

theorem takeFault_writesOnlyOwn (i : Instr) (s : State) (f : ModelFault) : WritesOnlyOwn i s (s.takeFault f) := by
  constructor <;> simp

/-- The ops that share an effect share its case. -/
theorem effectOf_writesOnlyOwn (i : Instr) (s : State) : WritesOnlyOwn i s (effectOf i s) := by
  cases i with
  | init => rw [effectOf, initEffect_writes]; constructor <;> simp
  | ctlidleLlat | ctlidleHlat | ctlidleRd | ctlidleWr | ctlidleRst => constructor <;> simp [effectOf, ctlidleEffect]
  | setdirOut | setdirIn => constructor <;> simp [effectOf, setdirEffect]
  | pulseLlat | pulseHlat | pulseRd | pulseWr | pulseRst => constructor <;> simp [effectOf, pulseEffect]
  | assertLlat | assertHlat | assertRd | assertWr | assertRst => constructor <;> simp [effectOf, driveEffect]
  | deassertLlat | deassertHlat | deassertRd | deassertWr | deassertRst => constructor <;> simp [effectOf, driveEffect]
  | advance => rw [effectOf, advanceEffect_eq]; constructor <;> simp
  | presentLow | presentHigh | settle | sample | emit | shutdown | halt => constructor <;> simp [effectOf]

theorem exec_writesOnlyOwn {i : Instr} {s t : State} (h : exec i s = .next t) : WritesOnlyOwn i s t := by
  rcases exec_cases h with ⟨-, rfl⟩ | ⟨c, -, -, rfl⟩
  · exact effectOf_writesOnlyOwn i s
  · exact takeFault_writesOnlyOwn i s c.fault

/-- ADVANCE has no check, so it always has its effect. -/
theorem exec_advance (s : State) : exec .advance s = .next (advanceEffect s) := rfl

/-- Settles O31: an op other than ADVANCE is not named for `addr`, and the effect of ADVANCE bumps it. -/
theorem onlyAdvanceWritesTheAddress : Obligations.OnlyAdvanceWritesTheAddress := by
  refine ⟨fun _ => rfl, fun i s t hi h => (exec_writesOnlyOwn h).addr hi, fun s t h => ?_⟩
  obtain rfl : advanceEffect s = t := Host.Outcome.next.inj (exec_advance s ▸ h)
  rw [advanceEffect_eq, State.jump_addr, State.bumpAddr_addr]

/-- Settles O32: the "written by" column, with what nothing writes from `exec_growsTo`. -/
theorem registersHaveOnlyTheirWriters : Obligations.RegistersHaveOnlyTheirWriters := by
  intro i s t h
  obtain ⟨-, -, hcfg, hrom, hdevice⟩ := exec_growsTo h
  obtain ⟨-, hword, hwvalid, hbusDir, hbusOut, hctl, hhal, hstatus, hout, hdevA⟩ := exec_writesOnlyOwn h
  exact ⟨hword, hwvalid, hbusDir, hbusOut, hctl, hhal, hstatus, hout, hdevA, hcfg, hrom, hdevice⟩

/-! ### The micro-pc -/

/-- Where an op of a running block leaves `pc`: at itself if the block stops, else at `pc + 1`, or for ADVANCE also at
`LOOP_PC`. -/
def PcMoved (i : Instr) (s t : State) : Prop :=
  (t.status ≠ .running → t.pc = s.pc) ∧
  (t.status = .running → i ≠ .advance → t.pc = s.pc + 1#5) ∧
  (t.status = .running → i = .advance → t.pc = s.cfg.loopPc ∨ t.pc = s.pc + 1#5)

theorem pcMoved_of_stopped {i : Instr} {s t : State} (ht : t.status ≠ .running) (hp : t.pc = s.pc) : PcMoved i s t :=
  ⟨fun _ => hp, fun hr => absurd hr ht, fun hr => absurd hr ht⟩

theorem pcMoved_of_next {i : Instr} {s t : State} (ht : t.status = .running) (hp : t.pc = s.pc + 1#5) : PcMoved i s t :=
  ⟨fun hn => absurd ht hn, fun _ _ => hp, fun _ _ => .inr hp⟩

/-- The effects that stop the block are HALT and the INIT whose HAL fails; only ADVANCE can jump. -/
theorem effectOf_pcMoved (i : Instr) {s : State} (hr : s.status = .running) : PcMoved i s (effectOf i s) := by
  cases i with
  | init =>
    cases hdraw : s.halIn.initDraw with
    | ok => rw [effectOf, initEffect_of_ok hdraw]; exact pcMoved_of_next hr rfl
    | fail => rw [effectOf, initEffect_of_fail hdraw]; exact pcMoved_of_stopped nofun rfl
  | halt => exact pcMoved_of_stopped nofun rfl
  | advance =>
    rw [effectOf, advanceEffect_eq]
    exact ⟨fun hn => absurd hr hn, fun _ hne => absurd rfl hne, fun _ _ => (ite_eq_or_eq ..).symm⟩
  | _ =>
    apply pcMoved_of_next <;> simp [effectOf, ctlidleEffect, setdirEffect, pulseEffect, driveEffect, hr]

/-- Settles O33: an effect moves `pc` as `PcMoved` says, and a fault stops the block where it is. -/
theorem pcStepsByOneOrStays : Obligations.PcStepsByOneOrStays := by
  intro i s t hr h
  rcases exec_cases h with ⟨-, rfl⟩ | ⟨c, -, -, rfl⟩
  · exact effectOf_pcMoved i hr
  · exact pcMoved_of_stopped nofun rfl

end Sys2Proof.Machine

/-! PROOFS. Steps (spec/10_state.md R31, R45; spec/60_exceptions.md R222), valid configurations (R42, R43) and power-on
reset (R51). -/

namespace Sys2Proof.Machine

/-! ### Steps -/

/-- Settles O6: fetch answers the decoded op, and a step runs what fetch answers. -/
theorem stepRunsDecodedInstruction : Obligations.StepRunsDecodedInstruction :=
  fun _ _ _ hv hr hw hi => step_of_fetch hv hr (fetch_eq_ok hw hi)

theorem fetch_of_length_le {s : State} (h : s.microRom.length ≤ s.pc.toNat) : fetch s = .error (.pcRange s.pc) := by
  rw [fetch, List.getElem?_eq_none h]

/-- A fault of fetch is taken by the step (R222). -/
theorem step_of_fetch_error {s : State} {f : ModelFault} (hv : s.configured = true) (hr : s.status = .running)
    (hf : fetch s = .error f) : step s = .next (s.takeFault f) := by
  simp [step, hv, State.isRunning, hr, hf]

/-- Settles O8. -/
theorem fetchPastRomFaults : Obligations.FetchPastRomFaults :=
  fun _ hv hr hlen => step_of_fetch_error hv hr (fetch_of_length_le hlen)

theorem step_of_stopped {s : State} (hv : s.configured = true) (hr : s.status ≠ .running) : step s = .next s := by
  simp [step, hv, hr]

/-- Settles O9, by induction on the number of steps. -/
theorem stoppedBlockStaysAsItIs : Obligations.StoppedBlockStaysAsItIs := by
  intro s n hv hr
  induction n with
  | zero => rfl
  | succ n ih => exact (runSteps_succ_of_next n (step_of_stopped hv hr)).trans ih

theorem exec_isNext (i : Instr) (s : State) : ∃ t, exec i s = .next t := by
  rw [exec_eq_guarded]
  exact guarded_isNext ..

theorem step_of_not_configured {s : State} (hv : ¬ s.configured = true) : step s = .refused .invalidConfiguration := by
  simp [step, hv]

/-- A state whose configuration may run its micro-ROM has a next state: it stays, runs an op or takes a fetch fault. -/
theorem step_isNext {s : State} (hv : s.configured = true) : ∃ t, step s = .next t := by
  by_cases hr : s.status = .running
  · cases hf : fetch s with
    | ok i => exact (step_of_fetch hv hr hf).symm ▸ exec_isNext i s
    | error f => exact ⟨_, step_of_fetch_error hv hr hf⟩
  · exact ⟨s, step_of_stopped hv hr⟩

/-! ### Valid configurations -/

/-- The lines of a configuration are those of the bus and those of the five signals. -/
theorem lines_eq (c : Configuration) :
    c.lines = (List.range busWidth).map (c.busBase + ·) ++ Signal.all.map c.line := rfl

theorem Signal.mem_all (g : Signal) : g ∈ Signal.all := by cases g <;> decide

/-- R43 (a): bus lines never meet each other, so what is left is a bus line against a signal's and two signals' lines. -/
theorem linesDistinct_iff (c : Configuration) : c.linesDistinct = true ↔
    (∀ (i : Nat) (g : Signal), i < 16 → c.busBase + i ≠ c.line g) ∧ ∀ g h : Signal, g ≠ h → c.line g ≠ c.line h := by
  have hbus : ((List.range busWidth).map (c.busBase + ·)).Nodup :=
    List.nodup_range.map (add_right_injective c.busBase)
  have hsignals : (Signal.all.map c.line).Nodup ↔ ∀ g h : Signal, g ≠ h → c.line g ≠ c.line h := by
    rw [List.nodup_map_iff_inj_on (by decide)]
    exact ⟨fun hinj g h hne heq => hne (hinj g (Signal.mem_all g) h (Signal.mem_all h) heq),
      fun hdist g _ h _ heq => by_contra fun hne => hdist g h hne heq⟩
  have hapart : List.Disjoint ((List.range busWidth).map (c.busBase + ·)) (Signal.all.map c.line) ↔
      ∀ (i : Nat) (g : Signal), i < 16 → c.busBase + i ≠ c.line g := by
    simp only [List.disjoint_iff_ne, List.forall_mem_map, List.mem_range]
    exact ⟨fun h i g hi => h i hi g (Signal.mem_all g), fun h i hi g _ => h i g hi⟩
  rw [Configuration.linesDistinct, decide_eq_true_eq, lines_eq, List.nodup_append', hsignals, hapart]
  exact ⟨fun h => ⟨h.2.2, h.2.1⟩, fun h => ⟨hbus, h.2, h.1⟩⟩

theorem valid_iff (c : Configuration) : c.valid = true ↔
    c.linesDistinct = true ∧ 1 ≤ c.latchHoldUs ∧ 1 ≤ c.strobeSettleUs ∧
    c.bankSize.toNat % 2 = 0 ∧ 2 ≤ c.bankSize.toNat ∧ c.bankSize.toNat ≤ 0x1000000 := by
  simp only [Configuration.valid, Configuration.waitsPositive, Configuration.bankSizeLegal, Bool.and_eq_true,
    decide_eq_true_eq]
  tauto

/-- Settles O10: the three parts of R43, and a step that is refused exactly where the state is not configured. -/
theorem invalidConfigurationIsRefused : Obligations.InvalidConfigurationIsRefused := by
  refine ⟨fun c => ?_, fun s => ⟨fun hbad => step_of_not_configured fun hv => ?_,
    fun hv hl => step_isNext (s.configured_iff.mpr ⟨hv, hl⟩)⟩⟩
  · have hbus : ∀ i j : Nat, i < 16 → j < 16 → i ≠ j → c.busBase + i ≠ c.busBase + j :=
      fun _ _ _ _ hne heq => hne (Nat.add_left_cancel heq)
    rw [valid_iff, linesDistinct_iff, and_assoc]
    exact ⟨fun h => ⟨hbus, h⟩, fun h => h.2⟩
  · obtain ⟨hvalid, hloop⟩ := s.configured_iff.mp hv
    rcases hbad with hinvalid | ⟨hrom, hne⟩
    · simp [hvalid] at hinvalid
    · exact hne (hloop hrom)

/-! ### Reset -/

/-- Settles O11. -/
theorem resetLeavesTheListedValues : Obligations.ResetLeavesTheListedValues :=
  fun c => ⟨State.resetWith c, rfl, rfl, rfl, rfl, rfl, rfl, busAllUnknown_get, CtlLines.get_allUnknown, rfl, rfl, rfl, rfl,
    rfl, rfl⟩

/-- At the start of a run `pc` is 0, so of the phases only that of INIT speaks: HAL not initialised, nothing emitted, and
the address 0 inside a bank that is not empty (R43). -/
theorem canonicalAt_startOf {c : Configuration} (h : HalInput) (m : Memory) (hv : c.valid = true) :
    CanonicalAt (startOf c h m) := by
  have hpc : (startOf c h m).pc.toNat = 0 := rfl
  constructor
  case uninit => exact fun _ => rfl
  case addrZero => exact fun _ => rfl
  case addrEven => rfl
  case emitted => simp [startOf, State.resetWith, evenAddrs]
  case addrInBank =>
    intro _
    obtain ⟨-, hbank, -⟩ := bankSize_of_valid hv
    exact Nat.lt_of_lt_of_le Nat.zero_lt_two hbank
  all_goals simp [hpc]

theorem startOf_canonicalInv {c : Configuration} (h : HalInput) (m : Memory) (hv : c.valid = true)
    (hl : c.loopPc = 7#5) : CanonicalInv (startOf c h m) where
  valid := hv
  rom := rfl
  loop := hl
  phase := .inl ⟨rfl, canonicalAt_startOf h m hv⟩

/-- Settles O46; `State.reset` is the start of a run in the production configuration, with no answer and no content
listed. -/
theorem resetHasCanonicalInv : Obligations.ResetHasCanonicalInv :=
  ⟨fun _ h m => startOf_canonicalInv h m, startOf_canonicalInv State.reset.halIn [] (by decide) rfl⟩

end Sys2Proof.Machine

/-! PROOFS. The device and the draws (spec/20_memory.md R70, R72): what a latch pulse captures, where a sampled level comes
from, and that SAMPLE takes any word the draws give. -/

namespace Sys2Proof.Machine

/-! ### What a latch pulse captures -/

/-- Lines whose levels are the bits of `x` capture `x`: they are `known` of those levels, which pack to `x`. -/
theorem knownLevels_bits {n : Nat} {rs : List Recorded} (x : BitVec n) (hn : rs.length = n)
    (h : ∀ (i : Nat) (hi : i < rs.length), rs[i] = .known (if x.getLsbD i then .high else .low)) :
    ((knownLevels rs).map fun vs => BitVec.ofNat n (packLevels vs)) = some x := by
  have hrs : rs = ((List.range n).map fun i => lvl (x.getLsbD i)).map .known :=
    List.ext_getElem (by simp [hn]) fun i hi _ => by simp [h i hi, lvl_eq_ite]
  rw [hrs, knownLevels_map_known, Option.map_some, packLevels_lvl]

/-- Settles O27: both halves by `knownLevels_bits`, the high one over the first 8 lines; one Unknown line leaves no list of
levels to pack. -/
theorem latchCapturesTheBusBits : Obligations.LatchCapturesTheBusBits := by
  refine fun b => ⟨fun x hx => ?_, fun x hx => ?_, fun ⟨i, hi⟩ => ?_, fun ⟨i, hlt, hi⟩ => ?_⟩
  · exact knownLevels_bits x b.length_toList fun i h => hx ⟨i, by simpa using h⟩
  · refine knownLevels_bits x (by simp [highWidth, busWidth]) fun i h => ?_
    obtain ⟨hlt, h16⟩ : i < 8 ∧ i < 16 := by simpa [highWidth] using h
    simpa using hx ⟨i, h16⟩ hlt
  · have hmem : Recorded.unknown ∈ b.toList := by simp [← hi]
    rw [captureLow, knownLevels_of_unknown hmem, Option.map_none]
  · have hmem : Recorded.unknown ∈ b.toList.take highWidth :=
      List.mem_take_iff_getElem.mpr ⟨i, by simpa [highWidth] using hlt, by simpa using hi⟩
    rw [captureHigh, knownLevels_of_unknown hmem, Option.map_none]

/-! ### Where a sampled level comes from -/

/-- The latched address is known where both halves are, and is the number they make. -/
theorem DevLatch.address_eq_some_iff {d : DevLatch} {a : BusAddr} :
    d.address = some a ↔ ∃ h l, d.high = some h ∧ d.low = some l ∧ h ++ l = a := by
  obtain ⟨low, high⟩ := d
  cases high <;> cases low <;> simp [DevLatch.address]

theorem latchedAddress_toNat (h : BitVec 8) (l : BitVec 16) :
    (h ++ l : BitVec (8 + 16)).toNat = h.toNat * 65536 + l.toNat := by
  rw [BitVec.toNat_append, ← Nat.shiftLeft_add_eq_or_of_lt l.isLt, Nat.shiftLeft_eq]

theorem latchedAddress_getLsbD_zero (h : BitVec 8) (l : BitVec 16) :
    (h ++ l : BitVec (8 + 16)).getLsbD 0 = l.getLsbD 0 := by
  rw [BitVec.getLsbD_append]
  rfl

/-- When the device drives the bus, in terms of the two halves of its latch (R72). -/
theorem State.deviceWord_eq_some_iff {s : State} {w : BusWord} :
    s.deviceWord = some w ↔ ∃ (h : BitVec 8) (l : BitVec 16), s.ctl.rd = .known .low ∧ s.busDir = .input ∧
      s.devA.high = some h ∧ s.devA.low = some l ∧ l.getLsbD 0 = false ∧
      s.deviceRom.read (h.toNat * 65536 + l.toNat) = some w := by
  constructor
  · intro hw
    unfold State.deviceWord at hw
    split at hw
    · next hdrives =>
      split at hw
      · next a ha =>
        obtain ⟨h, l, hh, hl, rfl⟩ := DevLatch.address_eq_some_iff.mp ha
        obtain ⟨heven, hread⟩ := Option.ite_none_right_eq_some.mp hw
        rw [latchedAddress_getLsbD_zero] at heven
        rw [latchedAddress_toNat] at hread
        exact ⟨h, l, hdrives.1, hdrives.2, hh, hl, heven, hread⟩
      · cases hw
    · cases hw
  · rintro ⟨h, l, hrd, hdir, hh, hl, heven, hread⟩
    have haddr : s.devA.address = some (h ++ l) := DevLatch.address_eq_some_iff.mpr ⟨h, l, hh, hl, rfl⟩
    have heven' : (h ++ l : BitVec (8 + 16)).getLsbD 0 = false := (latchedAddress_getLsbD_zero h l).trans heven
    rw [State.deviceWord, if_pos ⟨hrd, hdir⟩, haddr, ← hread, ← latchedAddress_toNat]
    exact if_pos heven'

theorem State.lineLevel_of_deviceWord {s : State} {w : BusWord} (h : s.deviceWord = some w) (i : Nat) :
    s.lineLevel i = if w.getLsbD i then .high else .low := by
  simp [State.lineLevel, h, lvl_eq_ite]

theorem State.lineLevel_of_no_deviceWord {s : State} (h : s.deviceWord = none) (i : Nat) :
    s.lineLevel i = s.halIn.levelDraw i := by
  simp [State.lineLevel, h]

/-- Settles O28: the device drives the bus exactly in the first case. -/
theorem sampledLevelsComeFromDeviceOrDraws : Obligations.SampledLevelsComeFromDeviceOrDraws := by
  refine fun s i => ⟨fun h l w hrd hdir hh hl heven hw => ?_, fun hno => ?_⟩
  · exact State.lineLevel_of_deviceWord (State.deviceWord_eq_some_iff.mpr ⟨h, l, hrd, hdir, hh, hl, heven, hw⟩) i
  · refine State.lineLevel_of_no_deviceWord (Option.eq_none_iff_forall_ne_some.mpr fun w hw => hno ?_) i
    obtain ⟨h, l, hdrives⟩ := State.deviceWord_eq_some_iff.mp hw
    exact ⟨h, l, w, hdrives⟩

/-! ### SAMPLE takes any word -/

theorem exec_sample {s : State} (hr : s.hal = .ready) (hdir : s.busDir = .input) :
    exec .sample s = .next (s.halSampleBus.setWord (wordOfLevels s.sampledLevels)).nextPc :=
  exec_of_checks (by simp [checksOf, hr, hdir])

/-- A device of which nothing is assumed drives no word. -/
theorem State.deviceWord_of_no_content {s : State} (h : s.deviceRom = []) : s.deviceWord = none := by
  refine Option.eq_none_iff_forall_ne_some.mpr fun w hw => ?_
  obtain ⟨_, _, -, -, -, -, -, hread⟩ := State.deviceWord_eq_some_iff.mp hw
  simp [h, Memory.read] at hread

/-- Levels that are the bits of a word make that word. -/
theorem wordOfLevels_bits {w : BusWord} {v : Nat → Level} (h : ∀ i, i < 16 → v i = if w.getLsbD i then .high else .low) :
    wordOfLevels ((List.range 16).map v) = w := by
  have hbits : (List.range 16).map v = (List.range 16).map fun i => lvl (w.getLsbD i) :=
    List.map_congr_left fun i hi => by rw [h i (List.mem_range.mp hi), lvl_eq_ite]
  rw [hbits, wordOfLevels, packLevels_lvl]

/-- Settles O29: with no content assumed each level is its draw, and the 16 draws are the listed bits. -/
theorem sampleAcceptsEveryWord : Obligations.SampleAcceptsEveryWord := by
  intro s w hr hdir hrom hlevels
  have hline : ∀ i, i < 16 → s.lineLevel i = if w.getLsbD i then .high else .low := fun i hi => by
    simp [State.lineLevel_of_no_deviceWord (State.deviceWord_of_no_content hrom), HalInput.levelDraw, hlevels, hi]
  have hword : wordOfLevels s.sampledLevels = w := wordOfLevels_bits hline
  have hevents : ((List.range 16).map fun i => Event.sample (s.cfg.busLine i) (s.lineLevel i)) =
      (List.range 16).map fun i => .sample (s.cfg.busBase + i) (if w.getLsbD i then .high else .low) :=
    List.map_congr_left fun i hi => by rw [hline i (List.mem_range.mp hi), Configuration.busLine]
  have hdrawn : s.halIn.afterLevels 16 = { s.halIn with levels := [], levelCount := s.halIn.levelCount + 16 } := by
    simp [HalInput.afterLevels, hlevels]
  refine ⟨s.pc + 1#5, pcPlusOne_add_one s, (exec_sample hr hdir).trans ?_⟩
  rw [hword, ← hevents, ← hdrawn]
  rfl

end Sys2Proof.Machine

/-! PROOFS. Whole runs of the canonical micro-ROM (spec/30_encoding.md R103; spec/42_read_cycle.md R172, R175;
spec/43_host_control.md R193, R200): a run of a stretch of ops, BOOT, one read cycle, the cycles of a bank, and what an ideal
device makes of them (spec/20_memory.md R72). -/

namespace Sys2Proof.Machine

@[ext] theorem State.ext {s t : State} (pc : s.pc = t.pc) (addr : s.addr = t.addr) (word : s.word = t.word)
    (wvalid : s.wvalid = t.wvalid) (busDir : s.busDir = t.busDir) (busOut : s.busOut = t.busOut) (ctl : s.ctl = t.ctl)
    (hal : s.hal = t.hal) (status : s.status = t.status) (out : s.out = t.out) (devA : s.devA = t.devA)
    (trace : s.trace = t.trace) (cfg : s.cfg = t.cfg) (microRom : s.microRom = t.microRom)
    (deviceRom : s.deviceRom = t.deviceRom) (halIn : s.halIn = t.halIn) : s = t := by
  cases s
  cases t
  simp_all

/-! ### A stretch of ops -/

/-- The block runs the canonical micro-ROM in a valid configuration, and entry k comes next. -/
structure AtEntry (s : State) (k : Nat) : Prop where
  valid : s.cfg.valid = true
  loop : s.cfg.loopPc = 7#5
  rom : s.microRom = canonicalRom
  running : s.status = .running
  pc : s.pc.toNat = k

/-- The ops that always go on to the next entry. -/
def GoesOn (i : Instr) : Prop := i ≠ .init ∧ i ≠ .advance ∧ i ≠ .halt

/-- The ops of the list, executed in turn from s, find all they require and lead to t. -/
def RunsTo : List Instr → State → State → Prop
  | [], s, t => s = t
  | i :: is, s, t => (∀ c ∈ checksOf i s, c.holds = true) ∧ RunsTo is (effectOf i s) t

theorem RunsTo.append {is js : List Instr} {s t u : State} (hst : RunsTo is s t) (htu : RunsTo js t u) :
    RunsTo (is ++ js) s u := by
  induction is generalizing s with
  | nil => exact hst ▸ htu
  | cons i is ih =>
    obtain ⟨hhere, hafter⟩ := hst
    exact ⟨hhere, ih hafter⟩

theorem effectOf_goesOn {i : Instr} (hi : GoesOn i) (s : State) :
    (effectOf i s).pc = s.pc + 1#5 ∧ (effectOf i s).status = s.status := by
  obtain ⟨hinit, hadvance, hhalt⟩ := hi
  cases i with
  | init => exact absurd rfl hinit
  | advance => exact absurd rfl hadvance
  | halt => exact absurd rfl hhalt
  | _ => constructor <;> simp [effectOf, ctlidleEffect, setdirEffect, pulseEffect, driveEffect]

theorem AtEntry.step_eq {s : State} {k : Nat} {i : Instr} (h : AtEntry s k)
    (hop : (canonicalRom.map decode)[k]? = some (.ok i)) (hc : ∀ c ∈ checksOf i s, c.holds = true) :
    step s = .next (effectOf i s) := by
  obtain ⟨w, hw, hi⟩ : ∃ w, canonicalRom[k]? = some w ∧ decode w = .ok i := by simpa using hop
  exact (step_of_canonical hw hi h.valid h.loop h.running h.rom h.pc).trans (exec_of_checks hc)

theorem AtEntry.effectOf {s : State} {k : Nat} {i : Instr} (h : AtEntry s k) (hk : k < 31) (hi : GoesOn i) :
    AtEntry (effectOf i s) (k + 1) := by
  obtain ⟨hpc, hstatus⟩ := effectOf_goesOn hi s
  obtain ⟨-, -, hcfg, hrom, -⟩ := effectOf_growsTo i s
  exact {
    valid := hcfg ▸ h.valid
    loop := hcfg ▸ h.loop
    rom := hrom.trans h.rom
    running := hstatus.trans h.running
    pc := by rw [hpc, pcPlusOne_add_one s (h.pc ▸ hk), h.pc] }

/-- Where the micro-ROM holds a list of ops from entry k on, the run of as many steps leads where they lead. -/
theorem AtEntry.runSteps_ops {is : List Instr} {s t : State} {k : Nat} (h : AtEntry s k) (hk : k + is.length ≤ 31)
    (hops : is.map Except.ok <+: (canonicalRom.map decode).drop k) (hi : ∀ i ∈ is, GoesOn i) (hto : RunsTo is s t) :
    runSteps is.length s = .next t ∧ AtEntry t (k + is.length) := by
  induction is generalizing s k with
  | nil => exact hto ▸ ⟨rfl, h⟩
  | cons i is ih =>
    obtain ⟨hhere, hafter⟩ := hto
    obtain ⟨hgo, hgoes⟩ := List.forall_mem_cons.mp hi
    obtain ⟨rest, hrest⟩ := hops
    rw [List.length_cons] at hk ⊢
    have hop : (canonicalRom.map decode)[k]? = some (.ok i) := by
      rw [← List.head?_drop, ← hrest]
      rfl
    have htail : is.map Except.ok <+: (canonicalRom.map decode).drop (k + 1) :=
      ⟨rest, by rw [← List.tail_drop, ← hrest]; rfl⟩
    obtain ⟨hrun, hend⟩ := ih (h.effectOf (by omega) hgo) (by omega) htail hgoes hafter
    exact ⟨(runSteps_succ_of_next _ (h.step_eq hop hhere)).trans hrun, Nat.add_right_comm k 1 _ ▸ hend⟩

/-! ### BOOT -/

/-- The ops of BOOT after INIT (R103). -/
def bootOpsAfterInit : List Instr := [.ctlidleLlat, .ctlidleHlat, .ctlidleRd, .ctlidleWr, .ctlidleRst, .setdirOut]

/-- The state after an INIT that succeeds (R191). -/
def initedOf (c : Configuration) (h : HalInput) (m : Memory) : State :=
  { startOf c h m with pc := 1#5, hal := .ready, trace := [.init .ok], halIn := h.afterInit }

/-- The source's initial state R52, with the trace that leads to it. -/
def bootedOf (c : Configuration) (h : HalInput) (m : Memory) : State :=
  { startOf c h m with
    pc := 7#5, hal := .ready, ctl := ctlAllIdle, busDir := .output, trace := bootEvents c, halIn := h.afterInit }

theorem startOf_atEntry {c : Configuration} (h : HalInput) (m : Memory) (hv : c.valid = true) (hl : c.loopPc = 7#5) :
    AtEntry (startOf c h m) 0 := ⟨hv, hl, rfl, rfl, rfl⟩

theorem initedOf_atEntry {c : Configuration} (h : HalInput) (m : Memory) (hv : c.valid = true) (hl : c.loopPc = 7#5) :
    AtEntry (initedOf c h m) 1 := ⟨hv, hl, rfl, rfl, rfl⟩

theorem step_startOf {c : Configuration} {h : HalInput} (m : Memory) (hv : c.valid = true) (hl : c.loopPc = 7#5)
    (hok : h.initDraw = .ok) : step (startOf c h m) = .next (initedOf c h m) := by
  have heffect : effectOf .init (startOf c h m) = initedOf c h m := by
    have hdraw : (startOf c h m).halIn.initDraw = .ok := hok
    rw [effectOf, initEffect_of_ok hdraw]
    ext1 <;> simp [initedOf, startOf, State.resetWith, hok]
  rw [(startOf_atEntry h m hv hl).step_eq (i := .init) rfl (by simp [checksOf, startOf, State.resetWith]), heffect]

/-- Each signal gets its idle level, then the bus is turned to Output. -/
theorem runsTo_boot (c : Configuration) (h : HalInput) (m : Memory) :
    RunsTo bootOpsAfterInit (initedOf c h m) (bootedOf c h m) := by
  simp only [bootOpsAfterInit, RunsTo]
  refine ⟨?_, ?_, ?_, ?_, ?_, ?_, ?effects⟩
  case effects =>
    simp only [effectOf, ctlidleEffect, setdirEffect]
    ext1
    case trace =>
      simp [initedOf, bootedOf, startOf, State.resetWith, bootEvents, Configuration.line, Configuration.busLine, busWidth]
    all_goals rfl
  all_goals simp [checksOf, effectOf, ctlidleEffect, initedOf, CtlLines.set]

/-- BOOT leads to the source's initial state (R193, R52). -/
theorem runSteps_boot {c : Configuration} {h : HalInput} (m : Memory) (hv : c.valid = true) (hl : c.loopPc = 7#5)
    (hok : h.initDraw = .ok) : runSteps 7 (startOf c h m) = .next (bootedOf c h m) := by
  rw [runSteps_succ_of_next 6 (step_startOf m hv hl hok)]
  exact ((initedOf_atEntry h m hv hl).runSteps_ops (is := bootOpsAfterInit) (by decide) ⟨_, rfl⟩
    (by simp [bootOpsAfterInit, GoesOn]) (runsTo_boot c h m)).1

/-! ### One read cycle (R175) -/

/-- Steps 1 and 2 of a read cycle: each half of the address is presented and latched. -/
def latchOps : List Instr := [.presentLow, .pulseLlat, .presentHigh, .pulseHlat]

/-- Steps 3 and 4 of a read cycle: the bus is turned and the device is strobed. -/
def strobeOps : List Instr := [.setdirIn, .assertRd, .settle]

/-- Steps 5 to 7 of a read cycle: the bus is sampled, the strobe ends and the bus is turned back. -/
def sampleOps : List Instr := [.sample, .deassertRd, .setdirOut]

/-- The events of `latchOps`. -/
def latchEvents (c : Configuration) (a : Addr) : List Event :=
  ((List.range busWidth).map fun i => Event.drive (c.busLine i) (lowPhaseLevel a i))
  ++ [Event.drive c.lineLlat .high, Event.wait c.latchHoldUs, Event.drive c.lineLlat .low]
  ++ ((List.range highWidth).map fun i => Event.drive (c.busLine i) (highPhaseLevel a i))
  ++ [Event.drive c.lineHlat .high, Event.wait c.latchHoldUs, Event.drive c.lineHlat .low]

/-- The events of `strobeOps`. -/
def strobeEvents (c : Configuration) : List Event :=
  ((List.range busWidth).map fun i => Event.cfg (c.busLine i) .input)
  ++ [Event.drive c.lineRd .low, Event.wait c.strobeSettleUs]

/-- The events of `sampleOps` where the sampled levels are v. -/
def sampleEvents (c : Configuration) (v : Nat → Level) : List Event :=
  ((List.range busWidth).map fun i => Event.sample (c.busLine i) (v i))
  ++ [Event.drive c.lineRd .high] ++ ((List.range busWidth).map fun i => Event.cfg (c.busLine i) .output)

/-- The list R175 writes out is that of the parts of the cycle. -/
theorem cycleEvents_eq (c : Configuration) (a : Addr) (v : Nat → Level) :
    cycleEvents c a v =
      latchEvents c a ++ strobeEvents c ++ sampleEvents c v ++ [Event.out (busAddr a) (sumWord v)] := by
  simp only [cycleEvents, latchEvents, strobeEvents, sampleEvents, lowPhaseLevel, highPhaseLevel, lvl_eq_ite,
    List.append_assoc]
  rfl

/-- The device's latch once both halves of an address are latched. -/
def latchOf (a : Addr) : DevLatch := { low := some (a.setWidth 16), high := some (a.extractLsb' 16 8) }

/-- The state after `latchOps`. -/
def State.latched (s : State) : State :=
  { s with
    pc := 11#5, busOut := busHigh s.addr, devA := latchOf s.addr, trace := s.trace ++ latchEvents s.cfg s.addr }

/-- The state after `strobeOps`. -/
def State.strobed (s : State) : State :=
  { s with
    pc := 14#5, busDir := .input, busOut := busAllUnknown, ctl := ctlAllIdle.set .rd (.known .low)
    trace := s.trace ++ strobeEvents s.cfg }

/-- The state after `sampleOps` where the sampled levels are v. -/
def State.sampled (s : State) (v : Nat → Level) : State :=
  { s with
    pc := 17#5, busDir := .output, busOut := busAllUnknown, ctl := ctlAllIdle, word := sumWord v, wvalid := true
    trace := s.trace ++ sampleEvents s.cfg v, halIn := s.halIn.afterLevels busWidth }

/-- The state at the end of step 7 of a read cycle that starts in s. -/
def State.wordRead (s : State) : State := s.latched.strobed.sampled (cycleLevel s)

theorem sumWord_eq_wordOfLevels (v : Nat → Level) : sumWord v = wordOfLevels ((List.range 16).map v) := by
  rw [wordOfLevels, packLevels_sum, sumWord]
  refine congrArg (BitVec.ofNat 16) (Finset.sum_congr rfl fun i _ => ?_)
  cases v i <;> simp [bitOf]

theorem wordOfLevels_sampledLevels (s : State) : wordOfLevels s.sampledLevels = sumWord s.lineLevel :=
  (sumWord_eq_wordOfLevels s.lineLevel).symm

/-- With the address latched and the strobe active, the levels are those of R175: the device's where its content is listed
at that address, else draws. -/
theorem lineLevel_of_latched {s : State} (hrd : s.ctl.rd = .known .low) (hdir : s.busDir = .input)
    (hlatch : s.devA = latchOf s.addr) (heven : s.addr.toNat % 2 = 0) (hlt : s.addr.toNat < 2 ^ 24) :
    s.lineLevel = cycleLevel s := by
  have haddr : s.devA.address = some (s.addr.extractLsb' 16 8 ++ s.addr.setWidth 16) := by rw [hlatch]; rfl
  have hbit : (s.addr.extractLsb' 16 8 ++ s.addr.setWidth 16 : BitVec (8 + 16)).getLsbD 0 = false := by
    rw [getLsbD_zero_eq_false_iff, latchHalves_toNat hlt, heven]
  have hword : s.deviceWord = s.deviceRom.read s.addr.toNat := by
    rw [State.deviceWord, if_pos ⟨hrd, hdir⟩, haddr, ← latchHalves_toNat hlt]
    exact if_pos hbit
  funext i
  rw [State.lineLevel, cycleLevel, hword]
  cases s.deviceRom.read s.addr.toNat with
  | none => rfl
  | some w => exact lvl_eq_ite _

theorem ctlAllIdle_get (g : Signal) : ctlAllIdle.get g = .known g.idle := by cases g <;> rfl

theorem CycleStart.addr_lt {s : State} (h : CycleStart s) : s.addr.toNat < 2 ^ 24 := by
  have hin := h.addrInBank
  obtain ⟨-, -, hbank⟩ := bankSize_of_valid h.valid
  omega

/-- An even address counter in the bank is what PRESENT and EMIT ask for (R132). -/
theorem CycleStart.addrValid {s : State} (h : CycleStart s) : s.addr.getLsbD 0 = false ∧ s.addr.getLsbD 24 = false :=
  ⟨(getLsbD_zero_eq_false_iff _).mpr h.addrEven, (addr_bit24_eq_false_iff _).mpr h.addr_lt⟩

theorem CycleStart.atEntry {s : State} (h : CycleStart s) : AtEntry s 7 :=
  ⟨h.valid, h.loop, h.rom, h.running, by rw [h.atLoop]; rfl⟩

/-- PRESENT of either phase has what it requires. -/
theorem presentChecks_hold {s : State} (hr : s.hal = .ready) (hdir : s.busDir = .output)
    (haddr : s.addr.getLsbD 0 = false ∧ s.addr.getLsbD 24 = false) :
    ∀ c ∈ [halReady s, busIsOutput s, addrValid s], c.holds = true := by
  simp only [List.forall_mem_cons, halReady_holds, busIsOutput_holds, addrValid_holds]
  exact ⟨hr, hdir, haddr, nofun⟩

/-- PULSE and ASSERT have what they require where every signal is idle. -/
theorem activationChecks_of_idle {s : State} {g : Signal} (hr : s.hal = .ready) (hidle : s.ctl = ctlAllIdle)
    (hrd : g = .rd → s.busDir = .input) : ∀ c ∈ activationChecks s g, c.holds = true :=
  (activationChecks_hold s g).mpr ⟨hr, fun t => hidle ▸ ctlAllIdle_get t, hrd⟩

theorem runsTo_latched {s : State} (hpc : s.pc = 7#5) (hr : s.hal = .ready) (hdir : s.busDir = .output)
    (hidle : s.ctl = ctlAllIdle) (haddr : s.addr.getLsbD 0 = false ∧ s.addr.getLsbD 24 = false) :
    RunsTo latchOps s s.latched := by
  have hkept : (effectOf .pulseLlat (effectOf .presentLow s)).addr = s.addr := by simp [effectOf, pulseEffect]
  refine ⟨presentChecks_hold hr hdir haddr, activationChecks_of_idle (g := .llat) ?_ ?_ nofun,
    presentChecks_hold ?_ ?_ (hkept.symm ▸ haddr), activationChecks_of_idle (g := .hlat) ?_ ?_ nofun, ?effects⟩
  case effects =>
    simp only [RunsTo, effectOf, pulseEffect]
    ext1
    case trace => simp [State.latched, latchEvents, Configuration.line, Signal.active]
    case ctl => simp [State.latched, hidle, ctlAllIdle, CtlLines.set]
    case pc => simp [State.latched, hpc]
    all_goals simp [State.latched, latchOf]
  all_goals simp [effectOf, pulseEffect, hr, hdir, hidle, ctlAllIdle, CtlLines.set]

theorem runsTo_strobed {s : State} (hpc : s.pc = 11#5) (hr : s.hal = .ready) (hidle : s.ctl = ctlAllIdle) :
    RunsTo strobeOps s s.strobed := by
  refine ⟨by simp [checksOf, hr], activationChecks_of_idle hr hidle fun _ => rfl, ?_, ?_⟩
  · simp [checksOf, effectOf, setdirEffect, driveEffect, hr]
  · simp only [RunsTo, effectOf, setdirEffect, driveEffect]
    ext1
    case trace => simp [State.strobed, strobeEvents, Configuration.line]
    case busDir => rfl
    case pc => simp [State.strobed, hpc]
    all_goals simp [State.strobed, hidle]

theorem runsTo_sampled {s : State} (hpc : s.pc = 14#5) (hr : s.hal = .ready) (hdir : s.busDir = .input)
    (hctl : s.ctl = ctlAllIdle.set .rd (.known .low)) : RunsTo sampleOps s (s.sampled s.lineLevel) := by
  refine ⟨by simp [checksOf, hr, hdir], ?_, ?_, ?_⟩
  · simp [checksOf, effectOf, hr, hctl]
  · simp [checksOf, effectOf, driveEffect, hr, CtlLines.set]
  · simp only [RunsTo, effectOf, setdirEffect, driveEffect, wordOfLevels_sampledLevels]
    ext1
    case trace => simp [State.sampled, sampleEvents, Configuration.line]
    case busDir => rfl
    case pc => simp [State.sampled, hpc]
    case ctl => simp [State.sampled, hctl]; rfl
    all_goals simp [State.sampled]

/-- The 11 ops of a read cycle, part by part. -/
theorem CycleStart.runsTo_emit {s : State} (h : CycleStart s) : RunsTo cycleOps s (effectOf .emit s.wordRead) := by
  have hlevels : s.latched.strobed.lineLevel = cycleLevel s :=
    lineLevel_of_latched rfl rfl rfl h.addrEven h.addr_lt
  have hlatch : RunsTo latchOps s s.latched := runsTo_latched h.atLoop h.ready h.output h.idle h.addrValid
  have hstrobe : RunsTo strobeOps s.latched s.latched.strobed := runsTo_strobed rfl h.ready h.idle
  have hsample : RunsTo sampleOps s.latched.strobed s.wordRead := by
    rw [State.wordRead, ← hlevels]
    exact runsTo_sampled rfl h.ready rfl rfl
  have hemit : RunsTo [.emit] s.wordRead (effectOf .emit s.wordRead) :=
    ⟨by simpa [checksOf] using ⟨rfl, h.addrValid⟩, rfl⟩
  exact hlatch.append (hstrobe.append (hsample.append hemit))

/-- The end state of a read cycle (R175). -/
def State.afterCycle (s : State) : State :=
  { s with
    pc := if s.cfg.bankSize.toNat ≤ s.addr.toNat + 2 then 19#5 else 7#5
    addr := s.addr + 2#25
    word := sumWord (cycleLevel s)
    wvalid := false
    busOut := busAllUnknown
    devA := latchOf s.addr
    out := s.out ++ [(busAddr s.addr, sumWord (cycleLevel s))]
    trace := s.trace ++ cycleEvents s.cfg s.addr (cycleLevel s)
    halIn := s.halIn.afterLevels busWidth }

theorem effectOf_emit_wordRead {s : State} : effectOf .emit s.wordRead = { s.wordRead with
    pc := 18#5, out := s.out ++ [(busAddr s.addr, sumWord (cycleLevel s))]
    trace := s.trace ++ cycleEvents s.cfg s.addr (cycleLevel s) } := by
  ext1
  case trace => simp [effectOf, State.wordRead, State.latched, State.strobed, State.sampled, cycleEvents_eq]
  all_goals rfl

theorem CycleStart.effectOf_advance {s : State} (h : CycleStart s) :
    effectOf .advance (effectOf .emit s.wordRead) = s.afterCycle := by
  have hlt := h.addr_lt
  have hnext : (s.addr + 2#25).toNat = s.addr.toNat + 2 := by
    rw [BitVec.toNat_add, BitVec.toNat_ofNat]
    omega
  rw [effectOf_emit_wordRead, effectOf, advanceEffect_eq]
  ext1
  case pc => simp [State.afterCycle, State.wordRead, State.latched, State.strobed, State.sampled, endOfRange, hnext, h.loop]
  case busDir => exact h.output.symm
  case ctl => exact h.idle.symm
  all_goals rfl

/-- One read cycle runs to its end (R175): its 11 ops, then ADVANCE. -/
theorem CycleStart.runSteps_cycle {s : State} (h : CycleStart s) : runSteps 12 s = .next s.afterCycle := by
  obtain ⟨hrun, hat⟩ := h.atEntry.runSteps_ops (by decide) ⟨_, rfl⟩ (by simp [cycleOps, GoesOn]) h.runsTo_emit
  have hadvance : step (effectOf .emit s.wordRead) = .next s.afterCycle := by
    rw [hat.step_eq (i := .advance) rfl (by simp [checksOf]), h.effectOf_advance]
  exact (runSteps_add 1 hrun).trans (runSteps_succ_of_next 0 hadvance)

/-! ### The cycles of a bank (R172, R200) -/

theorem HalInput.afterLevels_afterLevels (h : HalInput) (m n : Nat) :
    (h.afterLevels m).afterLevels n = h.afterLevels (m + n) := by
  simp [HalInput.afterLevels, Nat.add_assoc]

theorem HalInput.levelDraw_afterLevels (h : HalInput) (n i : Nat) :
    (h.afterLevels n).levelDraw i = h.levelDraw (n + i) := by
  simp [HalInput.levelDraw, HalInput.afterLevels, Nat.add_assoc]

/-- The run from `startOf c h m` has come to the end of its first k read cycles. -/
structure CyclesDone (c : Configuration) (h : HalInput) (m : Memory) (k : Nat) (s : State) : Prop where
  cfg : s.cfg = c
  rom : s.microRom = canonicalRom
  device : s.deviceRom = m
  running : s.status = .running
  pc : s.pc = if c.bankSize.toNat ≤ 2 * k then 19#5 else 7#5
  addr : s.addr = BitVec.ofNat 25 (2 * k)
  ready : s.hal = .ready
  output : s.busDir = .output
  idle : s.ctl = ctlAllIdle
  noWord : s.wvalid = false
  drawn : s.halIn = h.afterInit.afterLevels (16 * k)
  out : s.out = (List.range k).map fun j => (BitVec.ofNat 24 (2 * j), sumWord (runLevel h.afterInit m j))
  trace : s.trace = bootEvents c
    ++ (List.range k).flatMap fun j => cycleEvents c (BitVec.ofNat 25 (2 * j)) (runLevel h.afterInit m j)

theorem bootedOf_cyclesDone {c : Configuration} (h : HalInput) (m : Memory) (hv : c.valid = true) :
    CyclesDone c h m 0 (bootedOf c h m) := by
  obtain ⟨-, hbank, -⟩ := bankSize_of_valid hv
  have hpc : (7#5 : MicroPc) = if c.bankSize.toNat ≤ 2 * 0 then 19#5 else 7#5 := (if_neg (by omega)).symm
  exact ⟨rfl, rfl, rfl, rfl, hpc, rfl, rfl, rfl, rfl, rfl, rfl, rfl, (List.append_nil _).symm⟩

section
variable {c : Configuration} {h : HalInput} {m : Memory} {k : Nat} {s : State}

/-- Inside the bank the address counter holds 2k. -/
theorem CyclesDone.addr_toNat (hs : CyclesDone c h m k s) (hv : c.valid = true) (hk : 2 * k ≤ c.bankSize.toNat) :
    s.addr.toNat = 2 * k := by
  obtain ⟨-, -, hbank⟩ := bankSize_of_valid hv
  rw [hs.addr, BitVec.toNat_ofNat]
  omega

theorem CyclesDone.cycleStart (hs : CyclesDone c h m k s) (hv : c.valid = true) (hl : c.loopPc = 7#5)
    (hk : 2 * k < c.bankSize.toNat) : CycleStart s where
  valid := hs.cfg ▸ hv
  rom := hs.rom
  loop := hs.cfg ▸ hl
  running := hs.running
  atLoop := hs.pc.trans (if_neg (by omega))
  addrEven := by rw [hs.addr_toNat hv hk.le]; omega
  addrInBank := by rw [hs.addr_toNat hv hk.le, hs.cfg]; exact hk
  output := hs.output
  idle := hs.idle
  ready := hs.ready

/-- The levels of the next cycle are those R200 gives for it. -/
theorem CyclesDone.cycleLevel_eq (hs : CyclesDone c h m k s) (hv : c.valid = true) (hk : 2 * k ≤ c.bankSize.toNat) :
    cycleLevel s = runLevel h.afterInit m k := by
  funext i
  rw [cycleLevel, runLevel, hs.device, hs.addr_toNat hv hk, hs.drawn, HalInput.levelDraw_afterLevels]

theorem CyclesDone.afterCycle (hs : CyclesDone c h m k s) (hv : c.valid = true) (hk : 2 * k < c.bankSize.toNat) :
    CyclesDone c h m (k + 1) s.afterCycle := by
  have haddr := hs.addr_toNat hv hk.le
  have hlevel := hs.cycleLevel_eq hv hk.le
  have hbus : busAddr s.addr = BitVec.ofNat 24 (2 * k) := by
    apply BitVec.eq_of_toNat_eq
    rw [busAddr_toNat, haddr, BitVec.toNat_ofNat]
  constructor
  case cfg => exact hs.cfg
  case rom => exact hs.rom
  case device => exact hs.device
  case running => exact hs.running
  case pc => rw [State.afterCycle, haddr, hs.cfg, Nat.mul_add]
  case addr => rw [State.afterCycle, hs.addr, Nat.mul_add, BitVec.ofNat_add]
  case ready => exact hs.ready
  case output => exact hs.output
  case idle => exact hs.idle
  case noWord => rfl
  case drawn => rw [State.afterCycle, hs.drawn, HalInput.afterLevels_afterLevels, Nat.mul_add]
  case out => rw [State.afterCycle, hs.out, hbus, hlevel, List.range_succ, List.map_append]; rfl
  case trace => simp [State.afterCycle, hs.trace, hs.cfg, hs.addr, hlevel, List.range_succ]

/-- At the end of the bank SHUTDOWN and HALT are left. -/
theorem CyclesDone.runSteps_end (hs : CyclesDone c h m k s) (hv : c.valid = true) (hl : c.loopPc = 7#5)
    (hk : c.bankSize.toNat = 2 * k) : runSteps 2 s = .next (effectOf .halt (effectOf .shutdown s)) := by
  have hat : AtEntry s 19 :=
    ⟨hs.cfg ▸ hv, hs.cfg ▸ hl, hs.rom, hs.running, by rw [hs.pc, if_pos hk.le]; rfl⟩
  have hshutdown : step s = .next (effectOf .shutdown s) := hat.step_eq rfl (by simp [checksOf, hs.ready])
  have hhalt : step (effectOf .shutdown s) = .next (effectOf .halt (effectOf .shutdown s)) :=
    (hat.effectOf (by decide) (by simp [GoesOn])).step_eq rfl (by simp [checksOf])
  exact (runSteps_succ_of_next 1 hshutdown).trans (runSteps_succ_of_next 0 hhalt)

end

/-- The induction over the cycles of a bank. -/
theorem runSteps_cycles {c : Configuration} {h : HalInput} (m : Memory) (hv : c.valid = true) (hl : c.loopPc = 7#5)
    (hok : h.initDraw = .ok) {k : Nat} (hk : 2 * k ≤ c.bankSize.toNat) :
    ∃ s, runSteps (7 + 12 * k) (startOf c h m) = .next s ∧ CyclesDone c h m k s := by
  induction k with
  | zero => exact ⟨bootedOf c h m, runSteps_boot m hv hl hok, bootedOf_cyclesDone h m hv⟩
  | succ k ih =>
    obtain ⟨s, hrun, hs⟩ := ih (by omega)
    have hin : 2 * k < c.bankSize.toNat := by omega
    exact ⟨s.afterCycle, (runSteps_add 12 hrun).trans (hs.cycleStart hv hl hin).runSteps_cycle, hs.afterCycle hv hin⟩

/-- The whole run: BOOT, the N cycles of the bank, SHUTDOWN and HALT (R200). -/
theorem runSteps_whole {c : Configuration} {h : HalInput} (m : Memory) {N : Nat} (hv : c.valid = true)
    (hl : c.loopPc = 7#5) (hok : h.initDraw = .ok) (hN : c.bankSize.toNat = 2 * N) :
    ∃ s, CyclesDone c h m N s ∧
      runSteps (12 * N + 9) (startOf c h m) = .next (effectOf .halt (effectOf .shutdown s)) := by
  obtain ⟨s, hrun, hs⟩ := runSteps_cycles m hv hl hok hN.ge
  have hlen : 12 * N + 9 = 7 + 12 * N + 2 := by omega
  exact ⟨s, hs, hlen ▸ (runSteps_add 2 hrun).trans (hs.runSteps_end hv hl hN)⟩

/-! ### The ideal device -/

/-- A cycle at a listed address reads the word listed there (R72). -/
theorem sumWord_runLevel_of_listed {m : Memory} {k : Nat} {w : BusWord} (h : HalInput) (hw : m.read (2 * k) = some w) :
    sumWord (runLevel h m k) = w := by
  rw [sumWord_eq_wordOfLevels]
  exact wordOfLevels_bits fun i _ => by simp only [runLevel, hw]

/-- Settles O50: the whole run emits the word of each cycle's levels, and those are the bits of the listed word. -/
theorem idealDeviceRunEmitsItsContent : Obligations.IdealDeviceRunEmitsItsContent := by
  intro c h m N content hv hl hok hN hlisted
  obtain ⟨s, hs, hrun⟩ := runSteps_whole m hv hl hok hN
  refine ⟨_, hrun, rfl, hs.out.trans (List.map_congr_left fun k hk => ?_)⟩
  rw [sumWord_runLevel_of_listed _ (hlisted k (List.mem_range.mp hk))]

end Sys2Proof.Machine

/-! PROOFS. Encoding (spec/30_encoding.md R90 to R101): encode and decode are inverse to each other, the legal words are the
encodings of the 31 ops, the canonical micro-ROM is the encoding of its ops, and a placed word is the word a step runs. -/

namespace Sys2Proof.Machine

/-! ### Decode after encode -/

open Laws.RoundTrip in
/-- The round trip of every row of R91. -/
theorem roundTrip (i : Instr) : Statement i := by
  cases i
  exacts [init, ctlidleLlat, ctlidleHlat, ctlidleRd, ctlidleWr, ctlidleRst, setdirOut, setdirIn, presentLow, presentHigh,
    pulseLlat, pulseHlat, pulseRd, pulseWr, pulseRst, assertLlat, assertHlat, assertRd, assertWr, assertRst, deassertLlat,
    deassertHlat, deassertRd, deassertWr, deassertRst, settle, sample, emit, advance, shutdown, halt]

@[simp] theorem decode_encode (i : Instr) : decode (encode i) = .ok i := (roundTrip i).1

/-- Settles O1, row by row. -/
theorem decodeOfEncodeIsInstruction : Obligations.DecodeOfEncodeIsInstruction := roundTrip

/-! ### Encode after decode -/

/-- A word is its two fields (R90). -/
theorem opWord_opField_argField (w : OpWord) : opWord (opField w) (argField w) = w :=
  (BitVec.extractLsb'_append_extractLsb'_eq_extractLsb' rfl).trans BitVec.extractLsb'_eq_self

theorem field_of_directionOperand {arg : OpField} {d : Direction} (h : directionOperand arg = some d) :
    arg = BitVec.ofNat 4 d.code := by
  unfold directionOperand at h
  split at h <;> cases h <;> exact BitVec.eq_of_toNat_eq ‹_›

theorem field_of_phaseOperand {arg : OpField} {p : Phase} (h : phaseOperand arg = some p) : arg = BitVec.ofNat 4 p.code := by
  unfold phaseOperand at h
  split at h <;> cases h <;> exact BitVec.eq_of_toNat_eq ‹_›

theorem field_of_signalOperand {arg : OpField} {g : Signal} (h : signalOperand arg = some g) : arg = BitVec.ofNat 4 g.id := by
  unfold signalOperand at h
  split at h <;> cases h <;> exact BitVec.eq_of_toNat_eq ‹_›

section
variable {op arg : OpField} {k : Nat} {j : Instr}

/-- The rows of R91 without an operand (R95). -/
theorem opWord_of_noOperand {i : Instr} (hop : op.toNat = k) (henc : encode i = opWord (BitVec.ofNat 4 k) 0)
    (h : noOperand arg i = some j) : opWord op arg = encode j := by
  obtain ⟨rfl, rfl⟩ : arg = 0 ∧ i = j := by simpa [noOperand] using h
  rw [henc, ← hop, BitVec.ofNat_toNat, BitVec.setWidth_eq]

/-- The rows of R91 whose operand has the given code. -/
theorem opWord_of_operand {α : Type} {operand : OpField → Option α} {code : α → Nat} {f : α → Instr} (hop : op.toNat = k)
    (hinv : ∀ {a}, operand arg = some a → arg = BitVec.ofNat 4 (code a))
    (henc : ∀ a, encode (f a) = opWord (BitVec.ofNat 4 k) (BitVec.ofNat 4 (code a)))
    (h : (operand arg).map f = some j) : opWord op arg = encode j := by
  obtain ⟨a, ha, rfl⟩ := Option.map_eq_some_iff.mp h
  rw [henc, ← hop, BitVec.ofNat_toNat, BitVec.setWidth_eq, ← hinv ha]

/-- The table of R91 backwards, row by row. -/
theorem opWord_of_decodeFields {i : Instr} (h : decodeFields op arg = some i) : opWord op arg = encode i := by
  unfold decodeFields at h
  split at h
  case h_1 hop | h_8 hop | h_9 hop | h_10 hop | h_11 hop | h_12 hop | h_13 hop => exact opWord_of_noOperand hop rfl h
  case h_2 hop | h_5 hop | h_6 hop | h_7 hop =>
    exact opWord_of_operand hop field_of_signalOperand (by intro g; cases g <;> rfl) h
  case h_3 hop => exact opWord_of_operand hop field_of_directionOperand (by intro d; cases d <;> rfl) h
  case h_4 hop => exact opWord_of_operand hop field_of_phaseOperand (by intro p; cases p <;> rfl) h
  case h_14 => cases h

end

/-- Decoding is total, and rejects a word by its own name (R97). -/
theorem decode_cases (w : OpWord) :
    (∃ i, decode w = .ok i ∧ w = encode i) ∨ decode w = .error (.illegalOp w) := by
  unfold decode
  split
  · next i hi => exact .inl ⟨i, rfl, by rw [← opWord_of_decodeFields hi, opWord_opField_argField]⟩
  · exact .inr rfl

/-- Settles O2: a word that decodes is the encoding of what it decodes to. -/
theorem decodedWordIsTheEncoding : Obligations.DecodedWordIsTheEncoding := by
  intro w i hi
  rcases decode_cases w with ⟨j, hj, hw⟩ | herr
  · obtain rfl : j = i := Except.ok.inj (hj.symm.trans hi)
    exact hw
  · exact nomatch herr.symm.trans hi

/-! ### The legal words -/

/-- The 31 ops in the order of their words (R91). -/
def legalOps : List Instr :=
  [.init, .ctlidleLlat, .ctlidleHlat, .ctlidleRd, .ctlidleWr, .ctlidleRst, .setdirOut, .setdirIn, .presentLow, .presentHigh,
    .pulseLlat, .pulseHlat, .pulseRd, .pulseWr, .pulseRst, .assertLlat, .assertHlat, .assertRd, .assertWr, .assertRst,
    .deassertLlat, .deassertHlat, .deassertRd, .deassertWr, .deassertRst, .settle, .sample, .emit, .advance, .shutdown, .halt]

theorem mem_legalOps (i : Instr) : i ∈ legalOps := by cases i <;> decide

/-- A word is the encoding of an op exactly where it decodes. -/
theorem mem_map_encode_iff (w : OpWord) : w ∈ legalOps.map encode ↔ ∃ i, decode w = .ok i := by
  constructor
  · intro h
    obtain ⟨i, -, rfl⟩ := List.mem_map.mp h
    exact ⟨i, decode_encode i⟩
  · rintro ⟨i, hi⟩
    exact List.mem_map.mpr ⟨i, mem_legalOps i, (decodedWordIsTheEncoding w i hi).symm⟩

theorem decode_of_not_legal {w : OpWord} (h : w ∉ legalOps.map encode) : decode w = .error (.illegalOp w) :=
  (decode_cases w).resolve_left fun ⟨i, hi, _⟩ => h ((mem_map_encode_iff w).mpr ⟨i, hi⟩)

theorem fetch_of_decode_error {s : State} {w : OpWord} (hw : s.microRom[s.pc.toNat]? = some w)
    (hd : decode w = .error (.illegalOp w)) : fetch s = .error (.illegalOp w) := by
  simp [fetch, hw, hd]

/-- Settles O3: the list of R96 is that of the encodings, which are the words that decode; a rejected word is a fault of
fetch, which the step takes. -/
theorem legalWordsAreExactlyThirtyOne : Obligations.LegalWordsAreExactlyThirtyOne := by
  refine ⟨legalOps.map encode, rfl, rfl, by decide, fun w hw => (mem_map_encode_iff w).mp hw,
    fun w hw => decode_of_not_legal hw, fun s w hv hr hrom hw => ?_⟩
  exact step_of_fetch_error hv hr (fetch_of_decode_error hrom (decode_of_not_legal hw))

/-! ### The canonical micro-ROM -/

/-- The ops of the canonical micro-ROM: BOOT, CYCLE and the three that close the loop and the run (R100, R103). -/
def canonicalOps : List Instr := bootOps ++ cycleOps ++ [.advance, .shutdown, .halt]

theorem canonicalRom_eq_encode : canonicalRom = canonicalOps.map encode := by decide

theorem canonicalRom_decode : canonicalRom.map decode = canonicalOps.map Except.ok := by
  rw [canonicalRom_eq_encode, List.map_map]
  exact List.map_congr_left fun i _ => decode_encode i

/-- Settles O5: the bytes are the encodings of the listed ops, so they decode to them. -/
theorem canonicalRomHasTheListedOps : Obligations.CanonicalRomHasTheListedOps :=
  ⟨rfl, rfl, canonicalRom_decode, fun _ => rfl⟩

/-! ### A placed word -/

theorem opWordOfBits_toNat (w : OpWord) : opWordOfBits 8 w.toNat = w := by
  rw [opWordOfBits, Nat.mod_eq_of_lt w.isLt, BitVec.ofNat_toNat, BitVec.setWidth_eq]

theorem withFetchWord_get (s : State) (w : OpWord) :
    (s.withFetchWord 8 w.toNat).microRom[(s.withFetchWord 8 w.toNat).pc.toNat]? = some w := by
  rw [State.withFetchWord, opWordOfBits_toNat]
  exact placeOpWord_get s.microRom s.pc w

/-- Settles O7: fetch finds the placed word. -/
theorem placedWordIsRunNext : Obligations.PlacedWordIsRunNext :=
  fun s w _ hv hr hi => ⟨step_of_fetch hv hr (fetch_eq_ok (withFetchWord_get s w) hi), rfl⟩

end Sys2Proof.Machine

/-! PROOFS. The invariant of the canonical micro-ROM (`CanonicalInv`; spec/30_encoding.md R100, spec/43_host_control.md R200):
what the op of each entry requires is there, what it leaves is what the next entry stands for, and ADVANCE and the two ends
close the loop and the run. -/

namespace Sys2Proof

/-! ### Signals and emitted addresses -/

theorem Signal.id_le (g : Signal) : g.id ≤ 4 := by cases g <;> decide

theorem Signal.id_inj {g h : Signal} : g.id = h.id ↔ g = h := by cases g <;> cases h <;> decide

theorem busAddr_of_even {a : Addr} (h : a.toNat % 2 = 0) : busAddr a = BitVec.ofNat 24 (2 * (a.toNat / 2)) := by
  apply BitVec.eq_of_toNat_eq
  rw [busAddr_toNat, BitVec.toNat_ofNat]
  omega

namespace Machine

theorem CtlLines.get_set (c : CtlLines) (g h : Signal) (r : Recorded) :
    (c.set g r).get h = if h = g then r else c.get h := by
  split
  · next heq => rw [heq, CtlLines.get_set_self]
  · next hne => exact CtlLines.get_set_of_ne c r hne

theorem evenAddrs_succ (n : Nat) : evenAddrs (n + 1) = evenAddrs n ++ [BitVec.ofNat 24 (2 * n)] := by
  simp [evenAddrs, List.range_succ]

/-! ### What the op of an entry leaves -/

/-- What the op of an entry other than 18 (ADVANCE) and 20 (HALT) leaves in the registers the invariant looks at, by the
entry's index (R100). A signal that is pulsed is idle before and after. -/
structure EntryLeaves (s t : State) : Prop where
  pc : t.pc = s.pc + 1#5
  status : t.status = s.status
  cfg : t.cfg = s.cfg
  addr : t.addr = s.addr
  hal : t.hal = if s.pc.toNat = 0 then .ready else if s.pc.toNat = 19 then .shut else s.hal
  busDir : t.busDir =
    if s.pc.toNat = 6 ∨ s.pc.toNat = 16 then .output else if s.pc.toNat = 11 then .input else s.busDir
  ctl : ∀ g : Signal, t.ctl.get g =
    if s.pc.toNat = g.id + 1 ∨ g = .rd ∧ s.pc.toNat = 15 then .known g.idle
    else if g = .rd ∧ s.pc.toNat = 12 then .known .low else s.ctl.get g
  wvalid : t.wvalid = if s.pc.toNat = 14 then true else s.wvalid
  out : t.out.map Prod.fst = s.out.map Prod.fst ++ if s.pc.toNat = 17 then [busAddr s.addr] else []

section
variable {s : State}

theorem initEffect_entryLeaves (hpc : s.pc.toNat = 0) (hok : s.halIn.initDraw = .ok) : EntryLeaves s (initEffect s) := by
  rw [initEffect_of_ok hok]
  constructor <;> simp [hpc]

theorem ctlidleEffect_entryLeaves {g : Signal} (hpc : s.pc.toNat = g.id + 1) : EntryLeaves s (ctlidleEffect g s) := by
  have hlate : g.id ≠ 5 ∧ g.id ≠ 10 ∧ g.id ≠ 11 ∧ g.id ≠ 13 ∧ g.id ≠ 14 ∧ g.id ≠ 15 ∧ g.id ≠ 16 ∧ g.id ≠ 18 := by
    have := g.id_le
    omega
  constructor
  case ctl =>
    intro h
    have hentry : g.id = h.id ↔ h = g := by rw [Signal.id_inj, eq_comm]
    by_cases heq : h = g <;> simp [ctlidleEffect, CtlLines.get_set, hpc, hentry, hlate, heq]
  all_goals simp [ctlidleEffect, hpc, hlate]

/-- After BOOT only the entries 12 and 15 leave a signal at another level. -/
theorem ctl_get_of_kept {t : State} (hpos : 6 ≤ s.pc.toNat) (hassert : s.pc.toNat ≠ 12) (hdeassert : s.pc.toNat ≠ 15)
    (hctl : ∀ g : Signal, t.ctl.get g = s.ctl.get g) (g : Signal) : t.ctl.get g =
      if s.pc.toNat = g.id + 1 ∨ g = .rd ∧ s.pc.toNat = 15 then .known g.idle
      else if g = .rd ∧ s.pc.toNat = 12 then .known .low else s.ctl.get g := by
  have hid : s.pc.toNat ≠ g.id + 1 := by
    have := g.id_le
    omega
  simp [hctl, hid, hassert, hdeassert]

/-- The entries past BOOT's CTLIDLEs whose op drives no control signal. -/
theorem entryLeaves_of_undriven {i : Instr}
    (h : (s.pc.toNat, i) ∈ [(6, .setdirOut), (7, .presentLow), (9, .presentHigh), (11, .setdirIn), (13, .settle),
      (14, .sample), (16, .setdirOut), (17, .emit), (19, .shutdown)]) : EntryLeaves s (effectOf i s) := by
  simp only [List.mem_cons, Prod.mk.injEq, List.not_mem_nil, or_false] at h
  rcases h with ⟨hpc, rfl⟩ | ⟨hpc, rfl⟩ | ⟨hpc, rfl⟩ | ⟨hpc, rfl⟩ | ⟨hpc, rfl⟩ | ⟨hpc, rfl⟩ | ⟨hpc, rfl⟩ | ⟨hpc, rfl⟩ |
    ⟨hpc, rfl⟩
  all_goals
    constructor
    case ctl => exact ctl_get_of_kept (by omega) (by omega) (by omega) fun g => by simp [effectOf, setdirEffect]
    all_goals simp [effectOf, setdirEffect, BusDir.ofDirection, hpc]

/-- A pulse of a signal that was idle leaves it idle (R137). -/
theorem pulseEffect_entryLeaves {g : Signal} (hpc : s.pc.toNat = 8 ∨ s.pc.toNat = 10) (hidle : s.ctl.get g = .known g.idle) :
    EntryLeaves s (pulseEffect g s) := by
  constructor
  case ctl =>
    refine ctl_get_of_kept (by omega) (by omega) (by omega) fun h => ?_
    by_cases heq : h = g <;> simp [pulseEffect, CtlLines.get_set, heq, hidle]
  all_goals rcases hpc with hpc | hpc <;> simp [pulseEffect, hpc]

/-- ASSERT RD and DEASSERT RD. -/
theorem driveEffect_rd_entryLeaves {v : Level} (h : s.pc.toNat = 12 ∧ v = .low ∨ s.pc.toNat = 15 ∧ v = .high) :
    EntryLeaves s (driveEffect .rd v s) := by
  rcases h with ⟨hpc, rfl⟩ | ⟨hpc, rfl⟩
  all_goals
    constructor
    case ctl => intro g; cases g <;> simp [driveEffect, CtlLines.get_set, Signal.id, hpc]
    all_goals simp [driveEffect, hpc]

end

/-! ### From entry to entry -/

/-- What the op leaves is what the next entry stands for, register by register. -/
theorem CanonicalAt.of_entryLeaves {s t : State} (h : CanonicalAt s) (ht : EntryLeaves s t) (hle : s.pc.toNat ≤ 19)
    (hne : s.pc.toNat ≠ 18) : CanonicalAt t := by
  have hpc : t.pc.toNat = s.pc.toNat + 1 := by rw [ht.pc, pcPlusOne_add_one s (by omega)]
  constructor <;> simp only [hpc, ht.cfg, ht.addr]
  case inRom => omega
  case uninit => omega
  case ready =>
    intro _ hk
    rw [ht.hal]
    split
    · rfl
    · rw [if_neg (by omega)]; exact h.ready (by omega) (by omega)
  case shut => intro hk; rw [ht.hal, if_neg (by omega), if_pos (by omega)]
  case output =>
    intro hk
    rw [ht.busDir]
    split
    · rfl
    · rw [if_neg (by omega)]; exact h.output (by omega)
  case input =>
    intro hfrom hto
    rw [ht.busDir, if_neg (by omega)]
    split
    · rfl
    · exact h.input (by omega) (by omega)
  case strobe =>
    intro hfrom hto
    rw [← CtlLines.get_rd, ht.ctl, if_neg (by simp [Signal.id]; omega)]
    split
    · rfl
    · next hk =>
      have hkept : s.pc.toNat ≠ 12 := by simpa using hk
      exact h.strobe (by omega) (by omega)
  case idle =>
    intro g hfrom hrd
    rw [ht.ctl]
    split
    · rfl
    · next hk =>
      have hearlier : g = .rd → s.pc.toNat < 12 ∨ 16 ≤ s.pc.toNat := by
        rintro rfl
        have hnext := hrd rfl
        simp only [true_and, not_or] at hk
        omega
      have hassert : ¬(g = .rd ∧ s.pc.toNat = 12) := fun ⟨hg, hk⟩ => by
        have := hearlier hg
        omega
      rw [if_neg hassert]
      exact h.idle g (by omega) fun hg => (hearlier hg).imp_left Nat.le_of_lt
  case sampled =>
    intro hfrom hto
    rw [ht.wvalid]
    split
    · rfl
    · exact h.sampled (by omega) (by omega)
  case addrZero => exact fun hk => h.addrZero (by omega)
  case addrEven => exact h.addrEven
  case addrInBank => exact fun hk => h.addrInBank (by omega)
  case addrAtEnd => exact fun hk => h.addrAtEnd (by omega)
  case emitted =>
    rw [ht.out, h.emitted, if_neg hne]
    split
    · next hk => rw [if_pos (by omega), busAddr_of_even h.addrEven, evenAddrs_succ, Nat.add_zero]
    · next hk => rw [if_neg (by omega), List.append_nil]

/-- What PRESENT and EMIT ask of the address (R132). -/
theorem CanonicalAt.addrValid {s : State} (h : CanonicalAt s) (hv : s.cfg.valid = true) (hle : s.pc.toNat ≤ 18) :
    s.addr.getLsbD 0 = false ∧ s.addr.getLsbD 24 = false := by
  have hin := h.addrInBank hle
  obtain ⟨-, -, hbank⟩ := bankSize_of_valid hv
  exact ⟨(getLsbD_zero_eq_false_iff _).mpr h.addrEven, (addr_bit24_eq_false_iff _).mpr (by omega)⟩

/-- After BOOT's CTLIDLEs every signal is idle where ReadStrobe is. -/
theorem CanonicalAt.allIdle {s : State} (h : CanonicalAt s) (hpos : 6 ≤ s.pc.toNat)
    (hrd : s.pc.toNat ≤ 12 ∨ 16 ≤ s.pc.toNat) (g : Signal) : s.ctl.get g = .known g.idle := by
  have := g.id_le
  exact h.idle g (by omega) fun _ => hrd

/-- The op at entry 1 to 17 or 19 has what it requires, and leaves what the entry's index says: one line for each entry of
R100. -/
theorem CanonicalAt.exists_op {s : State} (h : CanonicalAt s) (hv : s.cfg.valid = true) (hpos : 1 ≤ s.pc.toNat)
    (hle : s.pc.toNat ≤ 19) (hne : s.pc.toNat ≠ 18) : ∃ i, (canonicalRom.map decode)[s.pc.toNat]? = some (.ok i) ∧
      (∀ c ∈ checksOf i s, c.holds = true) ∧ EntryLeaves s (effectOf i s) := by
  have hready := h.ready hpos hle
  obtain ⟨k, hk⟩ : ∃ k, s.pc.toNat = k := ⟨_, rfl⟩
  have hidle : 6 ≤ k → k ≤ 12 ∨ 16 ≤ k → ∀ g : Signal, s.ctl.get g = .known g.idle := hk ▸ h.allIdle
  have hcall : ∀ c ∈ [halReady s], c.holds = true := by simpa using hready
  have hturn : 6 ≤ k → k ≤ 12 ∨ 16 ≤ k → ∀ c ∈ [halReady s, strobeIdle s], c.holds = true := fun hfrom hto => by
    have hrd : s.ctl.rd = .known .high := hidle hfrom hto .rd
    simp [hready, hrd]
  have hpresent : 7 ≤ k → k ≤ 11 → ∀ c ∈ [halReady s, busIsOutput s, Machine.addrValid s], c.holds = true :=
    fun hfrom hto => presentChecks_hold hready (h.output (by omega)) (h.addrValid hv (by omega))
  have hactivate : 6 ≤ k → k ≤ 12 → ∀ g : Signal, (g = .rd → s.busDir = .input) →
      ∀ c ∈ activationChecks s g, c.holds = true :=
    fun hfrom hto g hrd => (activationChecks_hold s g).mpr ⟨hready, hidle hfrom (.inl hto), hrd⟩
  rw [hk] at hpos hle hne ⊢
  interval_cases k
  · exact ⟨.ctlidleLlat, rfl, hcall, ctlidleEffect_entryLeaves (g := .llat) hk⟩
  · exact ⟨.ctlidleHlat, rfl, hcall, ctlidleEffect_entryLeaves (g := .hlat) hk⟩
  · exact ⟨.ctlidleRd, rfl, hcall, ctlidleEffect_entryLeaves (g := .rd) hk⟩
  · exact ⟨.ctlidleWr, rfl, hcall, ctlidleEffect_entryLeaves (g := .wr) hk⟩
  · exact ⟨.ctlidleRst, rfl, hcall, ctlidleEffect_entryLeaves (g := .rst) hk⟩
  · exact ⟨.setdirOut, rfl, hturn (by decide) (by decide), entryLeaves_of_undriven (by simp [hk])⟩
  · exact ⟨.presentLow, rfl, hpresent (by decide) (by decide), entryLeaves_of_undriven (by simp [hk])⟩
  · exact ⟨.pulseLlat, rfl, hactivate (by decide) (by decide) .llat nofun,
      pulseEffect_entryLeaves (.inl hk) (hidle (by decide) (by decide) .llat)⟩
  · exact ⟨.presentHigh, rfl, hpresent (by decide) (by decide), entryLeaves_of_undriven (by simp [hk])⟩
  · exact ⟨.pulseHlat, rfl, hactivate (by decide) (by decide) .hlat nofun,
      pulseEffect_entryLeaves (.inr hk) (hidle (by decide) (by decide) .hlat)⟩
  · exact ⟨.setdirIn, rfl, hcall, entryLeaves_of_undriven (by simp [hk])⟩
  · have hinput := h.input (by omega) (by omega)
    exact ⟨.assertRd, rfl, hactivate (by decide) (by decide) .rd fun _ => hinput,
      driveEffect_rd_entryLeaves (.inl ⟨hk, rfl⟩)⟩
  · exact ⟨.settle, rfl, hcall, entryLeaves_of_undriven (by simp [hk])⟩
  · have hinput := h.input (by omega) (by omega)
    exact ⟨.sample, rfl, by simp [checksOf, hready, hinput], entryLeaves_of_undriven (by simp [hk])⟩
  · have hrd : s.ctl.get .rd = .known .low := h.strobe (by omega) (by omega)
    exact ⟨.deassertRd, rfl, by simp [checksOf, hready, hrd], driveEffect_rd_entryLeaves (.inr ⟨hk, rfl⟩)⟩
  · exact ⟨.setdirOut, rfl, hturn (by decide) (by decide), entryLeaves_of_undriven (by simp [hk])⟩
  · have hword := h.sampled (by omega) (by omega)
    have haddr := h.addrValid hv (by omega)
    exact ⟨.emit, rfl, by simpa [checksOf] using ⟨hword, haddr⟩, entryLeaves_of_undriven (by simp [hk])⟩
  · exact absurd rfl hne
  · exact ⟨.shutdown, rfl, hcall, entryLeaves_of_undriven (by simp [hk])⟩

/-- ADVANCE goes back to entry 7 inside the bank and on to entry 19 at its end, which the even address meets exactly
(R171, R172). -/
theorem CanonicalAt.effectOf_advance_target {s : State} (h : CanonicalAt s) (hv : s.cfg.valid = true)
    (hl : s.cfg.loopPc = 7#5) (hpc : s.pc.toNat = 18) : (effectOf .advance s).addr.toNat = s.addr.toNat + 2 ∧
      ((effectOf .advance s).pc.toNat = 19 ∧ s.addr.toNat + 2 = s.cfg.bankSize.toNat ∨
        (effectOf .advance s).pc.toNat = 7 ∧ s.addr.toNat + 2 < s.cfg.bankSize.toNat) := by
  have hin := h.addrInBank hpc.le
  have heven := h.addrEven
  obtain ⟨hbankEven, -, hbank⟩ := bankSize_of_valid hv
  have haddr : (s.addr + 2#25).toNat = s.addr.toNat + 2 := by
    rw [BitVec.toNat_add, BitVec.toNat_ofNat]
    omega
  rw [effectOf, advanceEffect_eq, State.jump_addr, State.bumpAddr_addr, State.jump_pc, endOfRange, haddr]
  refine ⟨rfl, ?_⟩
  by_cases hend : s.cfg.bankSize.toNat ≤ s.addr.toNat + 2
  · rw [if_pos (decide_eq_true hend), pcPlusOne_add_one s (by omega)]
    omega
  · have hloop : (7#5 : MicroPc).toNat = 7 := rfl
    rw [if_neg (by simpa using hend), hl, hloop]
    omega

theorem CanonicalAt.effectOf_advance {s : State} (h : CanonicalAt s) (hv : s.cfg.valid = true)
    (hl : s.cfg.loopPc = 7#5) (hpc : s.pc.toNat = 18) : CanonicalAt (effectOf .advance s) := by
  have heven := h.addrEven
  obtain ⟨haddr, htarget⟩ := h.effectOf_advance_target hv hl hpc
  obtain ⟨-, -, hcfg, -, -⟩ := effectOf_growsTo .advance s
  obtain ⟨-, -, -, hbusDir, -, hctl, hhal, -, hout, -⟩ := effectOf_writesOnlyOwn .advance s
  constructor
  case ready => exact fun _ _ => (hhal nofun nofun).trans (h.ready (by omega) (by omega))
  case output => exact fun _ => (hbusDir nofun nofun).trans (h.output (by omega))
  case idle =>
    intro g _ _
    rw [hctl (by decide)]
    exact h.allIdle (by omega) (by omega) g
  case addrInBank => rw [hcfg]; omega
  case addrAtEnd => rw [hcfg]; exact fun _ => BitVec.eq_of_toNat_eq (by omega)
  case emitted =>
    rw [hout nofun, h.emitted, if_pos hpc, if_neg (by omega), haddr, Nat.add_div_right _ Nat.zero_lt_two, Nat.add_zero]
  all_goals omega

/-! ### Steps -/

/-- The first step: on to entry 1, or the end with exit code 1 and no pair (R191, R200). -/
theorem CanonicalAt.effectOf_init {s : State} (h : CanonicalAt s) (hr : s.status = .running) (hpc : s.pc.toNat = 0) :
    ((effectOf .init s).status = .running ∧ CanonicalAt (effectOf .init s)) ∨
      ((effectOf .init s).status = .halted 1#8 ∧ (effectOf .init s).pc = 0#5 ∧ (effectOf .init s).hal = .uninit ∧
        (effectOf .init s).out = []) := by
  cases hdraw : s.halIn.initDraw with
  | ok =>
    have hleaves : EntryLeaves s (effectOf .init s) := initEffect_entryLeaves hpc hdraw
    exact .inl ⟨hleaves.status.trans hr, h.of_entryLeaves hleaves (by omega) (by omega)⟩
  | fail =>
    have hout : s.out = [] := by
      have hnone := h.emitted
      rw [h.addrZero (by omega), hpc] at hnone
      simpa [evenAddrs] using hnone
    rw [effectOf, initEffect_of_fail hdraw]
    exact .inr ⟨rfl, BitVec.eq_of_toNat_eq hpc, h.uninit hpc, hout⟩

/-- Settles O45: a block that has ended stays as it is; a running one has the op of its entry, which is INIT, ADVANCE, HALT or
one of those that go on to the next entry. -/
theorem stepKeepsCanonicalInv : Obligations.StepKeepsCanonicalInv := by
  intro s t h hstep
  obtain ⟨hvalid, hrom, hloop, ⟨hrun, hat⟩ | hended⟩ := h
  · have hnext : ∀ {i}, (canonicalRom.map decode)[s.pc.toNat]? = some (.ok i) →
        (∀ c ∈ checksOf i s, c.holds = true) → t = effectOf i s := fun hop hc =>
      Host.Outcome.next.inj (hstep.symm.trans (AtEntry.step_eq ⟨hvalid, hloop, hrom, hrun, rfl⟩ hop hc))
    obtain ⟨-, -, hcfg, hromKept, -⟩ := step_growsTo hstep
    refine ⟨hcfg ▸ hvalid, hromKept.trans hrom, hcfg ▸ hloop, ?_⟩
    by_cases hinit : s.pc.toNat = 0
    · obtain rfl := hnext (i := .init) (by rw [hinit]; rfl) (by simpa [checksOf] using hat.uninit hinit)
      exact (hat.effectOf_init hrun hinit).imp_right .inr
    by_cases hadvance : s.pc.toNat = 18
    · obtain rfl := hnext (i := .advance) (by rw [hadvance]; rfl) nofun
      have hstatus : (effectOf .advance s).status = s.status := by
        rw [effectOf, advanceEffect_eq, State.jump_status, State.bumpAddr_status]
      exact .inl ⟨hstatus.trans hrun, hat.effectOf_advance hvalid hloop hadvance⟩
    by_cases hhalt : s.pc.toNat = 20
    · obtain rfl := hnext (i := .halt) (by rw [hhalt]; rfl) nofun
      have hend := hat.addrAtEnd (by omega)
      have hout := hat.emitted
      rw [if_neg hadvance, hend] at hout
      exact .inr (.inl ⟨rfl, BitVec.eq_of_toNat_eq hhalt, hat.shut hhalt, hend, hout⟩)
    have hle := hat.inRom
    obtain ⟨i, hop, hc, hleaves⟩ := hat.exists_op hvalid (by omega) (by omega) hadvance
    obtain rfl := hnext hop hc
    exact .inl ⟨hleaves.status.trans hrun, hat.of_entryLeaves hleaves (by omega) hadvance⟩
  · have hstopped : s.status ≠ .running := by
      rcases hended with ⟨hs, -⟩ | ⟨hs, -⟩ <;> simp [hs]
    obtain rfl := Host.Outcome.next.inj
      ((step_of_stopped (State.configured_of_loop hvalid hloop) hstopped).symm.trans hstep)
    exact ⟨hvalid, hrom, hloop, .inr hended⟩

end Machine

end Sys2Proof

/-! PROOFS. SETDIR (spec/40_bus_direction.md R120, R121): one effect in both directions, one HAL check, and for OUT the check
that ReadStrobe is idle. -/

namespace Sys2Proof.Machine

/-- An op whose first check is that of the HAL faults on it where the HAL is not ready, whatever its other checks (R222). -/
theorem exec_of_hal_not_ready {i : Instr} {s : State} {cs : List Check} (hcs : checksOf i s = halReady s :: cs)
    (h : s.hal ≠ .ready) : exec i s = .next (s.takeFault (.halNotReady s.pc)) := by
  have hfails : (halReady s).holds = false := Bool.eq_false_iff.mpr (mt (halReady_holds s).mp h)
  rw [exec_eq_guarded, hcs, guarded_cons_false hfails, halReady]

/-- SETDIR OUT with a ready HAL faults where ReadStrobe is not recorded HIGH (R120). -/
theorem exec_setdirOut_of_contention {s : State} (hr : s.hal = .ready) (hrd : s.ctl.rd ≠ .known .high) :
    exec .setdirOut s = .next (s.takeFault (.busContention s.pc)) := by
  have hfails : (strobeIdle s).holds = false := Bool.eq_false_iff.mpr (mt (strobeIdle_holds s).mp hrd)
  rw [exec_eq_guarded, checksOf, guarded_cons_true ((halReady_holds s).mpr hr), guarded_cons_false hfails, strobeIdle]

/-- The whole next state of SETDIR in direction d where its checks hold: every register the update does not name stays. -/
theorem exec_setdir {i : Instr} {d : Direction} {s : State} (hi : effectOf i s = setdirEffect d s)
    (hc : ∀ c ∈ checksOf i s, c.holds = true) : ∃ p, s.PcPlusOne p ∧ exec i s = .next { s with
      busDir := BusDir.ofDirection d, busOut := busAllUnknown, pc := p
      trace := s.trace ++ (List.range busWidth).map fun i => .cfg (s.cfg.busLine i) d } :=
  ⟨s.pc + 1#5, pcPlusOne_add_one s, by rw [exec_of_checks hc, hi]; rfl⟩

/-- Settles O14: the effect where both checks hold, the HAL's fault first, then that of ReadStrobe. -/
theorem setdirOutTurnsTheBusToOutput : Obligations.SetdirOutTurnsTheBusToOutput := by
  refine ⟨(roundTrip .setdirOut).1, fun s => ⟨fun hr hrd => ?_, fun hn => ?_, fun hr hrd => ?_⟩⟩
  · have hchecks : ∀ c ∈ checksOf .setdirOut s, c.holds = true := by simp [checksOf, hr, hrd]
    exact exec_setdir (d := .output) rfl hchecks
  · exact exec_of_hal_not_ready rfl hn
  · exact exec_setdirOut_of_contention hr hrd

/-- Settles O15: SETDIR IN has the HAL's check alone, so no control line can stop it. -/
theorem setdirInReleasesTheBus : Obligations.SetdirInReleasesTheBus := by
  refine ⟨(roundTrip .setdirIn).1, fun s => ⟨fun hr => ?_, fun hn => ?_⟩⟩
  · have hchecks : ∀ c ∈ checksOf .setdirIn s, c.holds = true := by simp [checksOf, hr]
    exact exec_setdir (d := .input) rfl hchecks
  · exact exec_of_hal_not_ready rfl hn

end Sys2Proof.Machine

/-! PROOFS. PRESENT and PULSE (spec/41_address_latch.md R130 to R137): the fault a list of checks reports, the two fault
chains the statements are written in, then one effect for both phases of PRESENT and one for the five pulses. -/

namespace Sys2Proof.Machine

/-! ### The first failing check (R222) -/

/-- The fault an op with these checks reports, `none` where they all hold. -/
def firstFault (cs : List Check) : Option ModelFault := (cs.find? fun c => !c.holds).map Check.fault

/-- An op takes the fault its checks report. -/
theorem exec_of_firstFault {i : Instr} {s : State} {f : ModelFault} (h : firstFault (checksOf i s) = some f) :
    exec i s = .next (s.takeFault f) := by
  obtain ⟨c, hc, rfl⟩ := Option.map_eq_some_iff.mp h
  rw [exec_eq_guarded, guarded, hc]

/-- One rung of a fault chain: `p` says that the first check fails, and the rest of the chain need agree only where it holds. -/
theorem ite_eq_firstFault_cons {p : Prop} [Decidable p] {c : Check} {cs : List Check} {o : Option ModelFault}
    (hp : c.holds = true ↔ ¬ p) (ho : ¬ p → o = firstFault cs) :
    (if p then some c.fault else o) = firstFault (c :: cs) := by
  by_cases h : p
  · have hfails : c.holds = false := Bool.eq_false_iff.mpr fun hc => hp.mp hc h
    simp [firstFault, h, hfails]
  · simpa [firstFault, h, hp.mpr h] using ho h

/-- The chain of PRESENT is that of its checks (R130, R131). -/
theorem presentFault_eq_firstFault (s : State) :
    presentFault s = firstFault [halReady s, busIsOutput s, addrValid s] := by
  unfold presentFault
  refine ite_eq_firstFault_cons (c := halReady s) (by simp) fun _ => ?_
  refine ite_eq_firstFault_cons (c := busIsOutput s) (by simp) fun _ => ?_
  exact ite_eq_firstFault_cons (c := addrValid s) (by simp) fun _ => rfl

/-- A control line that is configured and not idle is active: a line has two levels. -/
theorem signalIdle_holds_of_configured {s : State} {t : Signal} (ht : s.ctl.get t ≠ .unknown) :
    (signalIdle s t).holds = true ↔ ¬ s.ctl.get t = .known t.active := by
  rw [signalIdle_holds]
  cases hv : s.ctl.get t with
  | unknown => exact absurd hv ht
  | known v => cases v <;> cases t <;> decide

/-- The chain of PULSE and ASSERT is that of their checks: the overlap rungs come after every signal is known to be
configured, so there "not idle" is "active" (R136, R150). -/
theorem activationFault_eq_firstFault (s : State) (g : Signal) :
    activationFault s g = firstFault (activationChecks s g) := by
  have configured : ∀ (t : Signal) {cs o}, (s.ctl.get t ≠ .unknown → o = firstFault cs) →
      (if s.ctl.get t = .unknown then some (.signalUnconfigured t) else o) = firstFault (signalConfigured s t :: cs) :=
    fun t _ _ ho => ite_eq_firstFault_cons (signalConfigured_holds s t) ho
  have noOverlap : ∀ {t : Signal} {cs o}, s.ctl.get t ≠ .unknown → o = firstFault cs →
      (if s.ctl.get t = .known t.active then some (.signalOverlap t) else o) = firstFault (signalIdle s t :: cs) :=
    fun ht ho => ite_eq_firstFault_cons (signalIdle_holds_of_configured ht) fun _ => ho
  have strobe : (if g = .rd ∧ s.busDir ≠ .input then some (.busContention s.pc) else none) =
      firstFault [strobeNeedsInput s g] :=
    ite_eq_firstFault_cons (c := strobeNeedsInput s g) (by simp) fun _ => rfl
  unfold activationFault
  exact ite_eq_firstFault_cons (c := halReady s) (by simp) fun _ =>
    configured .llat fun hllat => configured .hlat fun hhlat => configured .rd fun hrd => configured .wr fun hwr =>
    configured .rst fun hrst =>
    noOverlap hllat (noOverlap hhlat (noOverlap hrd (noOverlap hwr (noOverlap hrst strobe))))

/-! ### PRESENT -/

/-- The whole next state of PRESENT of either phase where its checks hold. -/
theorem exec_present {i : Instr} {s : State} {n : Nat} {level : Nat → Level} {b : Vector Recorded busWidth}
    (hi : effectOf i s = ((s.halDriveBus n level).setBusOut b).nextPc) (hc : ∀ c ∈ checksOf i s, c.holds = true) :
    ∃ p, s.PcPlusOne p ∧ exec i s = .next { s with
      busOut := b, pc := p, trace := s.trace ++ (List.range n).map fun i => .drive (s.cfg.busBase + i) (level i) } :=
  ⟨s.pc + 1#5, pcPlusOne_add_one s, by rw [exec_of_checks hc, hi]; rfl⟩

/-- Settles O16: bus line i shows `lvl` of address bit i. -/
theorem presentLowDrivesTheLowBits : Obligations.PresentLowDrivesTheLowBits := by
  refine ⟨(roundTrip .presentLow).1, fun s => ⟨fun hr hdir heven h24 => ?_, fun f hf => ?_⟩⟩
  · have hnext := exec_present (i := .presentLow) rfl (presentChecks_hold hr hdir ⟨heven, h24⟩)
    simpa only [busLow, lowPhaseLevel, lvl_eq_ite] using hnext
  · exact exec_of_firstFault ((presentFault_eq_firstFault s).symm.trans hf)

/-- Settles O17: bus line i < 8 shows `lvl` of address bit 16 + i, the other lines are Unknown. -/
theorem presentHighDrivesTheHighBits : Obligations.PresentHighDrivesTheHighBits := by
  refine ⟨(roundTrip .presentHigh).1, fun s => ⟨fun hr hdir heven h24 => ?_, fun f hf => ?_⟩⟩
  · have hnext := exec_present (i := .presentHigh) rfl (presentChecks_hold hr hdir ⟨heven, h24⟩)
    simpa only [busHigh, highPhaseLevel, lvl_eq_ite] using hnext
  · exact exec_of_firstFault ((presentFault_eq_firstFault s).symm.trans hf)

/-! ### PULSE -/

theorem checksOf_pulseOf (g : Signal) (s : State) : checksOf (pulseOf g) s = activationChecks s g := by cases g <;> rfl

theorem effectOf_pulseOf (g : Signal) (s : State) : effectOf (pulseOf g) s = pulseEffect g s := by cases g <;> rfl

/-- The registers a pulse writes (R136); the device's latch is `latchDevice`'s (R72). -/
theorem pulseEffect_eq (g : Signal) (s : State) : pulseEffect g s = { s with
    ctl := s.ctl.set g (.known g.idle), devA := (s.latchDevice g).devA, pc := s.pc + 1#5
    trace := s.trace ++ [.drive (s.cfg.line g) g.active, .wait s.cfg.latchHoldUs, .drive (s.cfg.line g) g.idle] } := by
  ext1
  case devA => cases g <;> rfl
  all_goals simp [pulseEffect]

/-- Idling a line that is idle changes nothing. -/
theorem ctlAllIdle_set_idle (g : Signal) : ctlAllIdle.set g (.known g.idle) = ctlAllIdle := by cases g <;> rfl

/-- The whole next state of a pulse of an idle signal: its line ends as it began (R137). -/
theorem exec_pulse {g : Signal} {s : State} (hr : s.hal = .ready) (hidle : s.ctl = ctlAllIdle)
    (hrd : g = .rd → s.busDir = .input) : ∃ p, s.PcPlusOne p ∧ exec (pulseOf g) s = .next { s with
      devA := (s.latchDevice g).devA, pc := p
      trace := s.trace ++ [.drive (s.cfg.line g) g.active, .wait s.cfg.latchHoldUs, .drive (s.cfg.line g) g.idle] } := by
  have hchecks : ∀ c ∈ checksOf (pulseOf g) s, c.holds = true :=
    checksOf_pulseOf g s ▸ activationChecks_of_idle hr hidle hrd
  have hctl : s.ctl.set g (.known g.idle) = s.ctl := hidle ▸ ctlAllIdle_set_idle g
  exact ⟨s.pc + 1#5, pcPlusOne_add_one s, by rw [exec_of_checks hchecks, effectOf_pulseOf, pulseEffect_eq, hctl]⟩

/-- Settles O37: of the two things a pulse can do, taking a fault is ruled out, and its effect ends by idling the signal. -/
theorem pulseAlwaysEndsIdle : Obligations.PulseAlwaysEndsIdle := by
  intro i g v s t hmem hexec hnofault
  obtain ⟨g, -, ⟨⟩⟩ := List.mem_map (f := fun g : Signal => (pulseOf g, g, g.idle)) (l := Signal.all).mp hmem
  rcases exec_cases hexec with ⟨-, rfl⟩ | ⟨c, -, -, rfl⟩
  · rw [effectOf_pulseOf, pulseEffect_eq]
    exact ⟨CtlLines.get_set_self .., List.getLast?_append_cons ..⟩
  · exact absurd rfl (hnofault c.fault)

/-- Settles O18, for every signal at once: the rows of the table are its encoding, its op and its two levels. -/
theorem pulseDrivesHoldsReturns : Obligations.PulseDrivesHoldsReturns := by
  intro w i g on off hmem
  obtain ⟨g, -, ⟨⟩⟩ := List.mem_map
    (f := fun g : Signal => (encode (pulseOf g), pulseOf g, g, g.active, g.idle)) (l := Signal.all).mp hmem
  refine ⟨decode_encode _, fun s => ⟨fun hr hidle hrd => ?_, fun f hf => ?_⟩⟩
  · have hnext := exec_pulse hr hidle hrd
    cases g with
    | llat | hlat | rd | wr | rst => exact hnext
  · exact exec_of_firstFault (checksOf_pulseOf g s ▸ (activationFault_eq_firstFault s g).symm.trans hf)

end Sys2Proof.Machine

/-! PROOFS. The sampled values decide nothing (spec/42_read_cycle.md R177, spec/10_state.md R47): `SameControl` is kept by every
state operation, so by every effect; the checks and the fetch read only what it keeps equal. -/

namespace Sys2Proof.Machine

/-! ### One rule per state operation -/

section
variable {s t : State}

theorem SameControl.takeFault (h : SameControl s t) (f : ModelFault) : SameControl (s.takeFault f) (t.takeFault f) :=
  { h with status := rfl }

theorem SameControl.nextPc (h : SameControl s t) : SameControl s.nextPc t.nextPc :=
  { h with pc := congrArg (· + 1#5) h.pc }

theorem SameControl.jump (h : SameControl s t) (p : MicroPc) : SameControl (s.jump p) (t.jump p) :=
  { h with pc := rfl }

theorem SameControl.bumpAddr (h : SameControl s t) : SameControl s.bumpAddr t.bumpAddr :=
  { h with addr := congrArg (· + 2#25) h.addr, wvalid := rfl }

/-- The two words need not agree. -/
theorem SameControl.setWord (h : SameControl s t) (w x : BusWord) : SameControl (s.setWord w) (t.setWord x) :=
  { h with wvalid := rfl }

theorem SameControl.setDirection (h : SameControl s t) (d : Direction) :
    SameControl (s.setDirection d) (t.setDirection d) :=
  { h with busDir := rfl, busOut := rfl }

theorem SameControl.setBusOut (h : SameControl s t) (b : Vector Recorded busWidth) :
    SameControl (s.setBusOut b) (t.setBusOut b) :=
  { h with busOut := rfl }

theorem SameControl.setCtl (h : SameControl s t) (g : Signal) (v : Level) : SameControl (s.setCtl g v) (t.setCtl g v) :=
  { h with ctl := congrArg (·.set g (.known v)) h.ctl }

theorem SameControl.setHal (h : SameControl s t) (x : HalState) : SameControl (s.setHal x) (t.setHal x) :=
  { h with hal := rfl }

theorem SameControl.haltWith (h : SameControl s t) (code : BitVec 8) : SameControl (s.haltWith code) (t.haltWith code) :=
  { h with status := rfl }

/-- What the device captures is the bus the block drove, which is the same in both. -/
theorem SameControl.latchDevice (h : SameControl s t) (g : Signal) : SameControl (s.latchDevice g) (t.latchDevice g) := by
  cases g with
  | llat => exact { h with devA := by simp [h.devA, h.busOut] }
  | hlat => exact { h with devA := by simp [h.devA, h.busOut] }
  | rd | wr | rst => exact h

/-- Events that differ only in sampled values. -/
theorem SameControl.record (h : SameControl s t) {es fs : List Event} (hshape : es.map Event.shape = fs.map Event.shape) :
    SameControl (s.record es) (t.record fs) :=
  { h with trace := by simp [h.trace, hshape] }

theorem SameControl.halCfg (h : SameControl s t) (l : Line) (d : Direction) : SameControl (s.halCfg l d) (t.halCfg l d) :=
  h.record rfl

theorem SameControl.halDrive (h : SameControl s t) (l : Line) (v : Level) :
    SameControl (s.halDrive l v) (t.halDrive l v) :=
  h.record rfl

theorem SameControl.halWait (h : SameControl s t) (n : Nat) : SameControl (s.halWait n) (t.halWait n) :=
  h.record rfl

theorem SameControl.halCfgBus (h : SameControl s t) (d : Direction) : SameControl (s.halCfgBus d) (t.halCfgBus d) :=
  h.record (by rw [h.cfg])

theorem SameControl.halDriveBus (h : SameControl s t) (n : Nat) (level : Nat → Level) :
    SameControl (s.halDriveBus n level) (t.halDriveBus n level) :=
  h.record (by rw [h.cfg])

/-- The pairs have the same address; their words need not agree. -/
theorem SameControl.emitPair (h : SameControl s t) (a : BusAddr) (w x : BusWord) :
    SameControl (s.emitPair a w) (t.emitPair a x) :=
  { h with
    outAddrs := by simp [h.outAddrs]
    trace := by simp [h.trace, Event.shape] }

/-- The same lines are sampled; their levels need not agree. -/
theorem SameControl.halSampleBus (h : SameControl s t) : SameControl s.halSampleBus t.halSampleBus :=
  { h with trace := by simp [h.trace, h.cfg, Event.shape] }

/-- The answers to `HAL.init()` are no sampled values. -/
theorem SameControl.initDraw_eq (h : SameControl s t) : s.halIn.initDraw = t.halIn.initDraw := by
  rw [HalInput.initDraw, HalInput.initDraw, h.inits, h.initCount]

theorem SameControl.halInit (h : SameControl s t) : SameControl s.halInit t.halInit :=
  { h with
    trace := by simp [h.trace, h.initDraw_eq]
    inits := congrArg (List.drop 1) h.inits
    initCount := congrArg (· + 1) h.initCount }

/-! ### The effects the ops share -/

theorem SameControl.initEffect (h : SameControl s t) : SameControl (initEffect s) (initEffect t) := by
  cases hdraw : s.halIn.initDraw with
  | ok =>
    rw [initEffect_of_ok hdraw, initEffect_of_ok (h.initDraw_eq ▸ hdraw)]
    exact (h.halInit.setHal .ready).nextPc
  | fail =>
    rw [initEffect_of_fail hdraw, initEffect_of_fail (h.initDraw_eq ▸ hdraw)]
    exact (h.halInit.record rfl).haltWith 1#8

theorem SameControl.ctlidleEffect (h : SameControl s t) (g : Signal) :
    SameControl (ctlidleEffect g s) (ctlidleEffect g t) := by
  rw [Machine.ctlidleEffect, Machine.ctlidleEffect, h.cfg]
  exact (((h.halCfg _ _).halDrive _ _).setCtl g g.idle).nextPc

theorem SameControl.setdirEffect (h : SameControl s t) (d : Direction) :
    SameControl (setdirEffect d s) (setdirEffect d t) :=
  ((h.halCfgBus d).setDirection d).nextPc

theorem SameControl.driveEffect (h : SameControl s t) (g : Signal) (v : Level) :
    SameControl (driveEffect g v s) (driveEffect g v t) := by
  rw [Machine.driveEffect, Machine.driveEffect, h.cfg]
  exact ((h.halDrive _ v).setCtl g v).nextPc

theorem SameControl.pulseEffect (h : SameControl s t) (g : Signal) : SameControl (pulseEffect g s) (pulseEffect g t) := by
  rw [Machine.pulseEffect, Machine.pulseEffect, h.cfg]
  have hlatched := ((h.halDrive (t.cfg.line g) g.active).setCtl g g.active).latchDevice g
  exact (((hlatched.halWait t.cfg.latchHoldUs).halDrive _ g.idle).setCtl g g.idle).nextPc

/-- The test of ADVANCE reads the address and the bank size alone (R171). -/
theorem SameControl.advanceEffect (h : SameControl s t) : SameControl (advanceEffect s) (advanceEffect t) := by
  rw [advanceEffect_eq, advanceEffect_eq, h.addr, h.cfg, h.pc]
  exact h.bumpAddr.jump _

/-- The ops that share an effect share its case; the words SAMPLE and EMIT handle are left free. -/
theorem SameControl.effectOf (h : SameControl s t) (i : Instr) : SameControl (effectOf i s) (effectOf i t) := by
  cases i with
  | init => exact h.initEffect
  | ctlidleLlat | ctlidleHlat | ctlidleRd | ctlidleWr | ctlidleRst => exact h.ctlidleEffect _
  | setdirOut | setdirIn => exact h.setdirEffect _
  | presentLow | presentHigh =>
    simp only [Machine.effectOf, h.addr]
    exact ((h.halDriveBus _ _).setBusOut _).nextPc
  | pulseLlat | pulseHlat | pulseRd | pulseWr | pulseRst => exact h.pulseEffect _
  | assertLlat | assertHlat | assertRd | assertWr | assertRst => exact h.driveEffect _ _
  | deassertLlat | deassertHlat | deassertRd | deassertWr | deassertRst => exact h.driveEffect _ _
  | settle =>
    simp only [Machine.effectOf, h.cfg]
    exact (h.halWait _).nextPc
  | sample => exact (h.halSampleBus.setWord _ _).nextPc
  | emit =>
    simp only [Machine.effectOf, h.addr]
    exact (h.emitPair _ _ _).nextPc
  | advance => exact h.advanceEffect
  | shutdown => exact ((h.record rfl).setHal .shut).nextPc
  | halt => exact h.haltWith 0#8

/-! ### Checks and steps -/

theorem SameControl.halReady_eq (h : SameControl s t) : halReady s = halReady t := by
  rw [halReady, halReady, h.hal, h.pc]

theorem SameControl.addrValid_eq (h : SameControl s t) : addrValid s = addrValid t := by
  rw [addrValid, addrValid, h.addr]

theorem SameControl.signalConfigured_eq (h : SameControl s t) : signalConfigured s = signalConfigured t := by
  funext g
  rw [signalConfigured, signalConfigured, h.ctl]

theorem SameControl.signalIdle_eq (h : SameControl s t) : signalIdle s = signalIdle t := by
  funext g
  rw [signalIdle, signalIdle, h.ctl]

theorem SameControl.activationChecks_eq (h : SameControl s t) (g : Signal) :
    activationChecks s g = activationChecks t g := by
  rw [activationChecks, activationChecks, h.halReady_eq, h.signalConfigured_eq, h.signalIdle_eq, strobeNeedsInput,
    strobeNeedsInput, h.busDir, h.pc]

/-- No check reads a sampled value. -/
theorem SameControl.checksOf_eq (h : SameControl s t) (i : Instr) : checksOf i s = checksOf i t := by
  cases i with
  | init => simp only [checksOf, halUninit, h.hal, h.pc]
  | setdirOut => simp only [checksOf, h.halReady_eq, strobeIdle, h.ctl, h.pc]
  | presentLow | presentHigh => simp only [checksOf, h.halReady_eq, busIsOutput, h.busDir, h.pc, h.addrValid_eq]
  | pulseLlat | pulseHlat | pulseRd | pulseWr | pulseRst => exact h.activationChecks_eq _
  | assertLlat | assertHlat | assertRd | assertWr | assertRst => exact h.activationChecks_eq _
  | deassertLlat | deassertHlat | deassertRd | deassertWr | deassertRst =>
    simp only [checksOf, h.halReady_eq, h.signalConfigured_eq]
  | sample => simp only [checksOf, h.halReady_eq, busIsInput, h.busDir, h.pc]
  | emit => simp only [checksOf, wordWritten, h.wvalid, h.pc, h.addrValid_eq]
  | advance | halt => rfl
  | ctlidleLlat | ctlidleHlat | ctlidleRd | ctlidleWr | ctlidleRst | setdirIn | settle | shutdown =>
    simp only [checksOf, h.halReady_eq]

theorem SameControl.configured_eq (h : SameControl s t) : s.configured = t.configured := by
  rw [State.configured, State.configured, h.cfg, h.microRom]

theorem SameControl.fetch_eq (h : SameControl s t) : fetch s = fetch t := by
  unfold fetch
  rw [h.pc, h.microRom]

/-- With the same checks both take the same fault, or both have their effect. -/
theorem SameControl.exec (h : SameControl s t) {i : Instr} {s' : State} (he : exec i s = .next s') :
    ∃ t', exec i t = .next t' ∧ SameControl s' t' := by
  rw [exec_eq_guarded, guarded, h.checksOf_eq] at he
  rw [exec_eq_guarded, guarded]
  cases hfind : (checksOf i t).find? (fun c => !c.holds) with
  | some c =>
    simp only [hfind] at he ⊢
    cases he
    exact ⟨_, rfl, h.takeFault c.fault⟩
  | none =>
    simp only [hfind] at he ⊢
    cases he
    exact ⟨_, rfl, h.effectOf i⟩

end

/-- Settles O38, by the cases of a step: both blocks are stopped, run the same op, or take the same fault of fetch. -/
theorem controlIgnoresSampledValues : Obligations.ControlIgnoresSampledValues := by
  intro s t s' h hstep
  obtain ⟨hv, ⟨hr, rfl⟩ | ⟨hr, i, hf, hexec⟩ | ⟨hr, f, hf, rfl⟩⟩ := step_cases hstep
  all_goals
    rw [h.configured_eq] at hv
    rw [h.status] at hr
  · exact ⟨t, step_of_stopped hv hr, h⟩
  · rw [step_of_fetch hv hr (h.fetch_eq ▸ hf)]
    exact h.exec hexec
  · exact ⟨_, step_of_fetch_error hv hr (h.fetch_eq ▸ hf), h.takeFault f⟩

end Sys2Proof.Machine

/-! PROOFS. The ops of the read cycle (spec/42_read_cycle.md R150 to R171), each with its whole next state; then the cycle they
make (R175), the counts of its events (R176, R272) and the order of the addresses it emits (R165). -/

namespace Sys2Proof.Machine

/-! ### ASSERT and DEASSERT -/

/-- The whole next state of an op that only drives its signal, where its checks hold. -/
theorem exec_drive {i : Instr} {g : Signal} {v : Level} {s : State} (hi : effectOf i s = driveEffect g v s)
    (hc : ∀ c ∈ checksOf i s, c.holds = true) : ∃ p, s.PcPlusOne p ∧ exec i s = .next { s with
      ctl := s.ctl.set g (.known v), pc := p, trace := s.trace ++ [.drive (s.cfg.line g) v] } :=
  ⟨s.pc + 1#5, pcPlusOne_add_one s, by rw [exec_of_checks hc, hi]; rfl⟩

theorem checksOf_assertOf (g : Signal) (s : State) : checksOf (assertOf g) s = activationChecks s g := by
  cases g <;> rfl

theorem effectOf_assertOf (g : Signal) (s : State) : effectOf (assertOf g) s = driveEffect g g.active s := by
  cases g <;> rfl

/-- Settles O19, for every signal at once: the rows of the table are its encoding, its op and its active level. -/
theorem assertDrivesTheActiveLevel : Obligations.AssertDrivesTheActiveLevel := by
  intro w i g v hmem
  obtain ⟨g, -, ⟨⟩⟩ := List.mem_map
    (f := fun g : Signal => (encode (assertOf g), assertOf g, g, g.active)) (l := Signal.all).mp hmem
  refine ⟨decode_encode _, fun s => ⟨fun hr hidle hrd => ?_, fun f hf => ?_⟩⟩
  · exact exec_drive (effectOf_assertOf g s) (checksOf_assertOf g s ▸ activationChecks_of_idle hr hidle hrd)
  · exact exec_of_firstFault (checksOf_assertOf g s ▸ (activationFault_eq_firstFault s g).symm.trans hf)

theorem checksOf_deassertOf (g : Signal) (s : State) :
    checksOf (deassertOf g) s = [halReady s, signalConfigured s g] := by
  cases g <;> rfl

theorem effectOf_deassertOf (g : Signal) (s : State) : effectOf (deassertOf g) s = driveEffect g g.idle s := by
  cases g <;> rfl

/-- With a ready HAL an op faults on the check that comes next, where that fails (R222). -/
theorem exec_of_second_check_fails {i : Instr} {s : State} {c : Check} {cs : List Check}
    (hcs : checksOf i s = halReady s :: c :: cs) (hr : s.hal = .ready) (hc : ¬ c.holds = true) :
    exec i s = .next (s.takeFault c.fault) := by
  rw [exec_eq_guarded, hcs, guarded_cons_true ((halReady_holds s).mpr hr), guarded_cons_false (Bool.eq_false_iff.mpr hc)]

/-- Settles O20, for every signal at once: the HAL and the signal itself are checked, no other. -/
theorem deassertDrivesTheIdleLevel : Obligations.DeassertDrivesTheIdleLevel := by
  intro w i g v hmem
  obtain ⟨g, -, ⟨⟩⟩ := List.mem_map
    (f := fun g : Signal => (encode (deassertOf g), deassertOf g, g, g.idle)) (l := Signal.all).mp hmem
  have hcs (s : State) := checksOf_deassertOf g s
  refine ⟨decode_encode _, fun s => ⟨fun hr hknown => ?_, fun hn => ?_, fun hr hunknown => ?_⟩⟩
  · exact exec_drive (effectOf_deassertOf g s) (by simp [hcs, hr, hknown])
  · exact exec_of_hal_not_ready (hcs s) hn
  · exact exec_of_second_check_fails (c := signalConfigured s g) (hcs s) hr (by simp [hunknown])

/-! ### SETTLE, SAMPLE, EMIT, ADVANCE -/

/-- Settles O21. -/
theorem settleWaitsTheSettleInterval : Obligations.SettleWaitsTheSettleInterval := by
  refine ⟨(roundTrip .settle).1, fun s => ⟨fun hr => ?_, exec_of_hal_not_ready rfl⟩⟩
  have hchecks : ∀ c ∈ checksOf .settle s, c.holds = true := by simp [checksOf, hr]
  exact ⟨s.pc + 1#5, pcPlusOne_add_one s, exec_of_checks hchecks⟩

/-- Bit i of the sum of R161 is the level of line i. -/
theorem sumWord_getLsbD (v : Nat → Level) {i : Nat} (hi : i < 16) : (sumWord v).getLsbD i = (v i == .high) := by
  rw [sumWord_eq_wordOfLevels, wordOfLevels_getLsbD _ i hi, ← bitOf_eq_beq]
  simp [hi]

/-- Settles O22: the word the op packs is the sum of R161. -/
theorem samplePacksTheSixteenLevels : Obligations.SamplePacksTheSixteenLevels := by
  refine ⟨(roundTrip .sample).1, fun s => ⟨fun hr hdir => ?_, exec_of_hal_not_ready rfl, fun hr hdir => ?_⟩⟩
  · refine ⟨s.pc + 1#5, pcPlusOne_add_one s, ?_, fun i => sumWord_getLsbD s.lineLevel⟩
    rw [exec_sample hr hdir, wordOfLevels_sampledLevels, Host.Outcome.next.injEq]
    ext1
    case trace => simp [Configuration.busLine]
    all_goals simp
  · exact exec_of_second_check_fails (c := busIsInput s) rfl hr (by simpa using hdir)

/-- Settles O23: the pair where both checks hold; the fault of the word comes before that of the address. -/
theorem emitYieldsThePair : Obligations.EmitYieldsThePair := by
  refine ⟨(roundTrip .emit).1, fun s => ⟨fun hword heven h24 => ?_, fun hword => ?_, fun hword haddr => ?_⟩⟩
  · have hchecks : ∀ c ∈ checksOf .emit s, c.holds = true := by
      simpa [checksOf] using ⟨hword, heven, h24⟩
    exact ⟨s.pc + 1#5, pcPlusOne_add_one s, exec_of_checks hchecks⟩
  · rw [exec_eq_guarded, checksOf, guarded_cons_false (c := wordWritten s) hword]
    rfl
  · have hfails : (addrValid s).holds = false := by
      rcases haddr with h | h <;> simp [addrValid, h]
    rw [exec_eq_guarded, checksOf, guarded_cons_true (c := wordWritten s) hword, guarded_cons_false hfails]
    rfl

/-- Settles O24: the counter after the add is the address the test is made on. -/
theorem advanceAddsTwoAndTestsTheBank : Obligations.AdvanceAddsTwoAndTestsTheBank := by
  refine ⟨(roundTrip .advance).1, fun s a ha => ?_⟩
  obtain rfl : s.addr + 2#25 = a := BitVec.eq_of_toNat_eq (by rw [ha, BitVec.toNat_add]; rfl)
  rw [exec_advance, advanceEffect_eq]
  refine ⟨fun hend => ⟨s.pc + 1#5, pcPlusOne_add_one s, ?_⟩, fun hin => ?_⟩
  · rw [if_pos (by simpa [endOfRange] using hend)]
    rfl
  · rw [if_neg (by simpa [endOfRange] using hin)]
    rfl

/-! ### The read cycle (R175) -/

/-- Settles O43: the end state of the cycle, written out. -/
theorem readCycleRunsToItsEnd : Obligations.ReadCycleRunsToItsEnd := fun _ h => h.runSteps_cycle

/-! ### The counts of a read cycle's events (R176, R272) -/

theorem halEventCount_append (es fs : List Event) : halEventCount (es ++ fs) = halEventCount es + halEventCount fs :=
  List.countP_append

theorem halEventCount_of_all_hal {es : List Event} (h : ∀ e ∈ es, e.isHal = true) : halEventCount es = es.length :=
  List.countP_eq_length.mpr h

theorem waitedMicros_append (es fs : List Event) : waitedMicros (es ++ fs) = waitedMicros es + waitedMicros fs := by
  simp [waitedMicros]

section
variable (c : Configuration) (a : Addr) (v : Nat → Level)

/-- The events before the first sample: the address is latched, the bus turned and the device strobed (R175). -/
def approachEvents : List Event := latchEvents c a ++ strobeEvents c

theorem cycleEvents_eq_approach :
    cycleEvents c a v = approachEvents c a ++ (sampleEvents c v ++ [.out (busAddr a) (sumWord v)]) := by
  rw [cycleEvents_eq, approachEvents, List.append_assoc _ (sampleEvents c v)]

theorem approachEvents_length : (approachEvents c a).length = 48 := by
  simp [approachEvents, latchEvents, strobeEvents, busWidth, highWidth]

theorem sampleEvents_length : (sampleEvents c v).length = 33 := by
  simp [sampleEvents, busWidth]

theorem approachEvents_isHal : ∀ e ∈ approachEvents c a, e.isHal = true := by
  simp [approachEvents, latchEvents, strobeEvents, or_imp, forall_and, Event.isHal]

theorem sampleEvents_isHal : ∀ e ∈ sampleEvents c v, e.isHal = true := by
  simp [sampleEvents, or_imp, forall_and, Event.isHal]

theorem approachEvents_no_sample (l : Line) (u : Level) : Event.sample l u ∉ approachEvents c a := by
  simp [approachEvents, latchEvents, strobeEvents]

theorem sampleEvents_getElem? {i : Nat} (hi : i < 16) :
    (sampleEvents c v)[i]? = some (.sample (c.busLine i) (v i)) := by
  rw [sampleEvents, List.append_assoc, List.getElem?_append_left (by simpa using hi)]
  simp [hi]

/-- The last event is no HAL call; all others are. -/
theorem cycleEvents_halEventCount : halEventCount (cycleEvents c a v) = 81 := by
  rw [cycleEvents_eq_approach, halEventCount_append, halEventCount_append,
    halEventCount_of_all_hal (approachEvents_isHal c a), halEventCount_of_all_hal (sampleEvents_isHal c v),
    approachEvents_length, sampleEvents_length]
  rfl

theorem cycleEvents_length : (cycleEvents c a v).length = 82 := by
  rw [cycleEvents_eq_approach, List.length_append, List.length_append, approachEvents_length, sampleEvents_length]
  rfl

theorem cycleEvents_getElem?_of_lt {k : Nat} (hk : k < 48) : (cycleEvents c a v)[k]? = (approachEvents c a)[k]? := by
  rw [cycleEvents_eq_approach, List.getElem?_append_left (by rwa [approachEvents_length])]

theorem cycleEvents_getElem?_sample {i : Nat} (hi : i < 16) :
    (cycleEvents c a v)[48 + i]? = some (.sample (c.busLine i) (v i)) := by
  have hlen := sampleEvents_length c v
  rw [cycleEvents_eq_approach, ← approachEvents_length c a, List.getElem?_append_right (Nat.le_add_right _ i),
    Nat.add_sub_cancel_left, List.getElem?_append_left (by omega), sampleEvents_getElem? c v hi]

/-- The two latch pulses and the settling of the strobe are all that is waited for. -/
theorem cycleEvents_waitedMicros : waitedMicros (cycleEvents c a v) = 2 * c.latchHoldUs + c.strobeSettleUs := by
  have hlatch : waitedMicros (latchEvents c a) = 2 * c.latchHoldUs := by
    simp [waitedMicros, latchEvents, Function.comp_def, Event.waited, Nat.two_mul]
  have hstrobe : waitedMicros (strobeEvents c) = c.strobeSettleUs := by
    simp [waitedMicros, strobeEvents, Function.comp_def, Event.waited]
  have hsample : waitedMicros (sampleEvents c v) = 0 := by
    simp [waitedMicros, sampleEvents, Function.comp_def, Event.waited]
  rw [cycleEvents_eq, waitedMicros_append, waitedMicros_append, waitedMicros_append, hlatch, hstrobe, hsample]
  rfl

end

/-- Settles O44: the events before the samples, the samples and the end of the list, each counted on its own. -/
theorem readCycleEventCounts : Obligations.ReadCycleEventCounts := by
  intro c a v
  refine ⟨cycleEvents_halEventCount c a v, cycleEvents_length c a v, fun k hk l u h => ?_,
    fun _ => cycleEvents_getElem?_sample c a v, ?_, cycleEvents_waitedMicros c a v⟩
  · rw [cycleEvents_getElem?_of_lt c a v hk] at h
    exact approachEvents_no_sample c a l u (List.mem_of_getElem? h)
  · rw [cycleEvents_eq, List.getLast?_concat]
    rfl

/-! ### The order of the emitted addresses (R165) -/

theorem evenAddrs_toNat {n : Nat} (hn : 2 * n ≤ 2 ^ 24) :
    (evenAddrs n).map BitVec.toNat = (List.range n).map (2 * ·) := by
  rw [evenAddrs, List.map_map]
  refine List.map_congr_left fun k hk => ?_
  have hlt := List.mem_range.mp hk
  rw [Function.comp_apply, BitVec.toNat_ofNat, Nat.mod_eq_of_lt (by omega)]

/-- Whatever its phase, the block has emitted the addresses 0, 2, 4, … of some pairs of the bank. -/
theorem CanonicalInv.out_toNat {s : State} (h : CanonicalInv s) :
    ∃ n, 2 * n ≤ s.cfg.bankSize.toNat ∧ (s.out.map fun p => p.1.toNat) = (List.range n).map (2 * ·) := by
  obtain ⟨heven, -, hbank⟩ := bankSize_of_valid h.valid
  suffices ∃ n, 2 * n ≤ s.cfg.bankSize.toNat ∧ s.out.map Prod.fst = evenAddrs n by
    obtain ⟨n, hn, hout⟩ := this
    refine ⟨n, hn, ?_⟩
    rw [← evenAddrs_toNat (by omega), ← hout, List.map_map]
    rfl
  obtain ⟨-, hat⟩ | ⟨-, -, -, -, hout⟩ | ⟨-, -, -, hout⟩ := h.phase
  · refine ⟨_, ?_, hat.emitted⟩
    by_cases hlate : 19 ≤ s.pc.toNat
    · rw [if_neg (by omega), hat.addrAtEnd hlate]
      exact Nat.mul_div_le _ 2
    · have hin := hat.addrInBank (by omega)
      have haddr := hat.addrEven
      split <;> omega
  · exact ⟨_, Nat.mul_div_le _ 2, hout⟩
  · exact ⟨0, Nat.zero_le _, by rw [hout]; rfl⟩

/-- Settles O48: the invariant of the canonical micro-ROM holds along the run, and says which addresses are emitted. -/
theorem emittedAddressesStrictlyIncrease : Obligations.EmittedAddressesStrictlyIncrease := by
  intro c h m n t hv hl hrun
  have hinv : CanonicalInv t := runSteps_preserves stepKeepsCanonicalInv (startOf_canonicalInv h m hv hl) hrun
  obtain ⟨-, -, hcfg, -, -⟩ := runSteps_growsTo hrun
  obtain ⟨k, hk, hout⟩ := hinv.out_toNat
  have hbank : t.cfg.bankSize = c.bankSize := by rw [hcfg]; rfl
  refine ⟨?_, fun p hp => ?_⟩
  · rw [hout, List.pairwise_map]
    exact List.pairwise_lt_range.imp fun hlt => by omega
  · have hmem : p.1.toNat ∈ (List.range k).map (2 * ·) := hout ▸ List.mem_map_of_mem hp
    obtain ⟨j, hj, heq⟩ := List.mem_map.mp hmem
    have hlt := List.mem_range.mp hj
    rw [← hbank]
    omega

end Sys2Proof.Machine

/-! PROOFS. Bring-up, the end of the range and the produced text (spec/43_host_control.md R190 to R200): INIT, CTLIDLE,
SHUTDOWN and HALT, each with its whole next state; what the HAL's lifecycle asks of every op (R194); then BOOT, a failing
bring-up and a whole run of the canonical micro-ROM, and the output line of a pair. -/

namespace Sys2Proof.Machine

/-! ### The HAL's lifecycle (R194) -/

/-- Every op that calls the HAL, other than INIT, checks it before anything else. -/
theorem checksOf_halReady_first {i : Instr} (hinit : i ≠ .init) (hemit : i ≠ .emit) (hadvance : i ≠ .advance)
    (hhalt : i ≠ .halt) (s : State) : ∃ cs, checksOf i s = halReady s :: cs := by
  cases i with
  | init => exact absurd rfl hinit
  | emit => exact absurd rfl hemit
  | advance => exact absurd rfl hadvance
  | halt => exact absurd rfl hhalt
  | _ => exact ⟨_, rfl⟩

/-- Settles O34: the first check is the one reported. -/
theorem halOpsFaultUnlessReady : Obligations.HalOpsFaultUnlessReady := by
  intro i s hinit hemit hadvance hhalt hn
  obtain ⟨cs, hcs⟩ := checksOf_halReady_first hinit hemit hadvance hhalt s
  exact exec_of_hal_not_ready hcs hn

/-! ### INIT, CTLIDLE, SHUTDOWN, HALT -/

theorem exec_init {s : State} (hu : s.hal = .uninit) : exec .init s = .next (initEffect s) :=
  exec_of_checks (by simp [checksOf, hu])

/-- INIT with the HAL's answer ok: the HAL is ready (R191). -/
theorem exec_init_of_ok {s : State} (hu : s.hal = .uninit) (hok : s.halIn.initDraw = .ok) :
    exec .init s = .next { s with
      hal := .ready, pc := s.pc + 1#5, trace := s.trace ++ [.init .ok], halIn := s.halIn.afterInit } := by
  rw [exec_init hu, initEffect_of_ok hok, ← hok]
  rfl

/-- INIT with the HAL's answer fail: the diagnostic and exit code 1, the HAL not ready (R191). -/
theorem exec_init_of_fail {s : State} (hu : s.hal = .uninit) (hfail : s.halIn.initDraw = .fail) :
    exec .init s = .next { s with
      status := .halted 1#8, trace := s.trace ++ [.init .fail, .diag], halIn := s.halIn.afterInit } := by
  have htrace : s.halInit.trace ++ [.diag] = s.trace ++ [.init .fail, .diag] := by simp [hfail]
  rw [exec_init hu, initEffect_of_fail hfail, ← htrace]
  rfl

theorem exec_init_again {s : State} (hu : s.hal ≠ .uninit) :
    exec .init s = .next (s.takeFault (.doubleInit s.pc)) := by
  have hfails : (halUninit s).holds = false := Bool.eq_false_iff.mpr (mt (halUninit_holds s).mp hu)
  rw [exec_eq_guarded, checksOf, guarded_cons_false hfails, halUninit]

/-- Settles O12: one lemma for each answer of the HAL, and one for a second INIT. -/
theorem initBringsUpTheHalOrHalts : Obligations.InitBringsUpTheHalOrHalts :=
  ⟨decode_encode .init, fun s => ⟨fun hu hok => ⟨s.pc + 1#5, pcPlusOne_add_one s, exec_init_of_ok hu hok⟩,
    exec_init_of_fail, exec_init_again⟩⟩

theorem checksOf_ctlidleOf (g : Signal) (s : State) : checksOf (ctlidleOf g) s = [halReady s] := by cases g <;> rfl

theorem effectOf_ctlidleOf (g : Signal) (s : State) : effectOf (ctlidleOf g) s = ctlidleEffect g s := by cases g <;> rfl

/-- The registers CTLIDLE writes, with its two events as one list: direction first, then the level (R192). -/
theorem ctlidleEffect_eq (g : Signal) (s : State) : ctlidleEffect g s = { s with
    ctl := s.ctl.set g (.known g.idle), pc := s.pc + 1#5
    trace := s.trace ++ [.cfg (s.cfg.line g) .output, .drive (s.cfg.line g) g.idle] } := by
  ext1 <;> simp [ctlidleEffect]

/-- Settles O13, for every signal at once: the rows of the table are its encoding, its op and its idle level. -/
theorem ctlidleDrivesTheIdleLevel : Obligations.CtlidleDrivesTheIdleLevel := by
  intro w i g v hmem
  obtain ⟨g, -, ⟨⟩⟩ := List.mem_map
    (f := fun g : Signal => (encode (ctlidleOf g), ctlidleOf g, g, g.idle)) (l := Signal.all).mp hmem
  refine ⟨decode_encode _, fun s => ⟨fun hr => ?_, exec_of_hal_not_ready (checksOf_ctlidleOf g s)⟩⟩
  have hchecks : ∀ c ∈ checksOf (ctlidleOf g) s, c.holds = true := by simp [checksOf_ctlidleOf, hr]
  exact ⟨s.pc + 1#5, pcPlusOne_add_one s, by rw [exec_of_checks hchecks, effectOf_ctlidleOf, ctlidleEffect_eq]⟩

/-- Settles O25: the HAL's check is the only one. -/
theorem shutdownTearsTheHalDown : Obligations.ShutdownTearsTheHalDown := by
  refine ⟨decode_encode .shutdown, fun s => ⟨fun hr => ?_, exec_of_hal_not_ready rfl⟩⟩
  have hchecks : ∀ c ∈ checksOf .shutdown s, c.holds = true := by simp [checksOf, hr]
  exact ⟨s.pc + 1#5, pcPlusOne_add_one s, exec_of_checks hchecks⟩

/-- Settles O26: HALT has no check, so it always has its effect. -/
theorem haltEndsWithSuccess : Obligations.HaltEndsWithSuccess :=
  ⟨decode_encode .halt, fun _ => exec_of_checks nofun⟩

/-- Settles O4: each word written out is the encoding of its op. -/
theorem wordsWrittenOutDecode : Obligations.WordsWrittenOutDecode :=
  ⟨decode_encode .init, decode_encode .ctlidleRst, decode_encode .setdirIn, decode_encode .presentHigh,
    decode_encode .pulseHlat, decode_encode .assertRd, decode_encode .deassertWr, decode_encode .settle,
    decode_encode .sample, decode_encode .emit, decode_encode .advance, decode_encode .shutdown, decode_encode .halt⟩

/-! ### BOOT and a failing bring-up (R193, R197) -/

theorem bootEvents_isHal (c : Configuration) : ∀ e ∈ bootEvents c, e.isHal = true := by
  simp [bootEvents, or_imp, forall_and, Event.isHal]

/-- Every event of BOOT is a HAL call. -/
theorem bootEvents_halEventCount (c : Configuration) : halEventCount (bootEvents c) = 27 := by
  rw [halEventCount_of_all_hal (bootEvents_isHal c)]
  rfl

theorem bootEvents_waitedMicros (c : Configuration) : waitedMicros (bootEvents c) = 0 := by
  simp [waitedMicros, bootEvents, Function.comp_def, Event.waited]

/-- Settles O41: `bootedOf` is the state written out. -/
theorem bootReachesTheInitialState : Obligations.BootReachesTheInitialState :=
  fun c _ m hv hl hok => ⟨runSteps_boot m hv hl hok, bootEvents_halEventCount c⟩

/-- Settles O42: the first step is an INIT that halts the block, and a halted block stays as it is. -/
theorem initFailureEndsTheRun : Obligations.InitFailureEndsTheRun := by
  intro c h m n hv hl hfail
  have hstep : step (startOf c h m) = exec .init (startOf c h m) :=
    step_of_canonical (k := 0) rfl (decode_encode .init) hv hl rfl rfl rfl
  rw [runSteps_succ_of_next n (hstep.trans (exec_init_of_fail rfl hfail))]
  exact stoppedBlockStaysAsItIs _ n (State.configured_of_loop hv hl) nofun

/-! ### A whole run (R200, R272) -/

/-- A measure of event lists that adds up along `++` adds up over the cycles of a run: as many times the measure of one. -/
theorem measure_flatMap {μ : List Event → Nat} (hnil : μ [] = 0) (happend : ∀ es fs, μ (es ++ fs) = μ es + μ fs)
    {cycle : Nat → List Event} {n : Nat} (hcycle : ∀ k, μ (cycle k) = n) (ks : List Nat) :
    μ (ks.flatMap cycle) = ks.length * n := by
  induction ks with
  | nil => simpa using hnil
  | cons k ks ih => rw [List.flatMap_cons, happend, hcycle, ih, List.length_cons, Nat.succ_mul, Nat.add_comm]

/-- The trace of a whole run of N cycles whose sampled levels in cycle k are v k (R200). -/
def wholeRunEvents (c : Configuration) (v : Nat → Nat → Level) (N : Nat) : List Event :=
  bootEvents c ++ (List.range N).flatMap (fun k => cycleEvents c (BitVec.ofNat 25 (2 * k)) (v k)) ++ [.shutdown]

theorem wholeRunEvents_halEventCount (c : Configuration) (v : Nat → Nat → Level) (N : Nat) :
    halEventCount (wholeRunEvents c v N) = 28 + 81 * N := by
  have hcycles := measure_flatMap rfl halEventCount_append
    (fun k => cycleEvents_halEventCount c (BitVec.ofNat 25 (2 * k)) (v k)) (List.range N)
  have hend : halEventCount [.shutdown] = 1 := rfl
  rw [wholeRunEvents, halEventCount_append, halEventCount_append, bootEvents_halEventCount, hcycles, hend,
    List.length_range]
  omega

/-- Only the read cycles wait (R272). -/
theorem wholeRunEvents_waitedMicros (c : Configuration) (v : Nat → Nat → Level) (N : Nat) :
    waitedMicros (wholeRunEvents c v N) = N * (2 * c.latchHoldUs + c.strobeSettleUs) := by
  have hcycles := measure_flatMap rfl waitedMicros_append
    (fun k => cycleEvents_waitedMicros c (BitVec.ofNat 25 (2 * k)) (v k)) (List.range N)
  have hend : waitedMicros [.shutdown] = 0 := rfl
  rw [wholeRunEvents, waitedMicros_append, waitedMicros_append, bootEvents_waitedMicros, hcycles, hend,
    List.length_range, Nat.zero_add, Nat.add_zero]

/-- Settles O49: SHUTDOWN and HALT write only `pc`, `hal`, the status and one event, so the rest is as the N cycles left
it. -/
theorem wholeRunReadsTheBank : Obligations.WholeRunReadsTheBank := by
  intro c h m N hv hl hok hN
  obtain ⟨s, hs, hrun⟩ := runSteps_whole m hv hl hok hN
  have hpc : s.pc + 1#5 = 20#5 := by rw [hs.pc, if_pos hN.le]; rfl
  have haddr : s.addr = c.bankSize := BitVec.eq_of_toNat_eq ((hs.addr_toNat hv hN.ge).trans hN.symm)
  have htrace : (effectOf .halt (effectOf .shutdown s)).trace = wholeRunEvents c (runLevel h.afterInit m) N :=
    congrArg (· ++ [Event.shutdown]) hs.trace
  exact ⟨_, hrun, rfl, hpc, haddr, rfl, hs.output, hs.idle, hs.noWord, htrace, hs.out,
    htrace ▸ wholeRunEvents_halEventCount .., htrace ▸ wholeRunEvents_waitedMicros ..⟩

/-! ### The output line (R198) -/

/-- The hex digit of a number below 16 in a letter case; of a larger one, that of its low nibble. -/
def nibbleDigit (c : HexCase) (n : Nat) : Char := hexDigit c (BitVec.ofNat 4 n)

theorem nibbleDigit_of_lt (c : HexCase) : ∀ n, n < 16 → nibbleDigit c n = (match c with
    | .upper => ['0', '1', '2', '3', '4', '5', '6', '7', '8', '9', 'A', 'B', 'C', 'D', 'E', 'F']
    | .lower => ['0', '1', '2', '3', '4', '5', '6', '7', '8', '9', 'a', 'b', 'c', 'd', 'e', 'f'])[n]?.getD ' ' := by
  cases c <;> decide

theorem nibbleDigit_mod (c : HexCase) (n : Nat) : nibbleDigit c (n % 16) = nibbleDigit c n :=
  congrArg (hexDigit c) (BitVec.eq_of_toNat_eq (by simp))

/-- The digits are those of the nibbles, the highest first. -/
theorem hexDigits_succ (c : HexCase) (n v : Nat) :
    hexDigits c (n + 1) v = nibbleDigit c (v / 16 ^ n) :: hexDigits c n v := by
  simp [hexDigits, nibbleDigit, List.range_succ]

theorem hexDigits_zero (c : HexCase) (v : Nat) : hexDigits c 0 v = [] := rfl

/-- Settles O51: the digits one by one; the highest of each number needs no reduction to a nibble. -/
theorem outputLineHasTheLiteralForm : Obligations.OutputLineHasTheLiteralForm := by
  refine ⟨fun c a w => ⟨nibbleDigit c, nibbleDigit_of_lt c, ?_⟩, fun _ => rfl⟩
  simp [outputLine, hexDigits_succ, hexDigits_zero, nibbleDigit_mod]

end Sys2Proof.Machine

/-! PROOFS. Model faults (spec/60_exceptions.md R221, R222, R224): an effect never faults the block, so a fault is a failed
check's or the fetch's and nothing else of the step happens; no op stops the model, and a run of the canonical micro-ROM
meets no fault. -/

namespace Sys2Proof.Machine

/-- Settles O30: an op answers its effect or the fault of a check (R224). -/
theorem everyOpAnswersANextState : Obligations.EveryOpAnswersANextState := exec_isNext

/-- The effect of an op on a running block leaves it running or halts it; only a check or the fetch faults it (R222). -/
theorem effectOf_not_faulted (i : Instr) {s : State} (hr : s.status = .running) (f : ModelFault) :
    (effectOf i s).status ≠ .faulted f := by
  by_cases hi : GoesOn i
  · obtain ⟨-, hstatus⟩ := effectOf_goesOn hi s
    simp [hstatus, hr]
  · obtain rfl | rfl | rfl : i = .init ∨ i = .advance ∨ i = .halt := by
      by_contra! hne
      exact hi hne
    · cases hdraw : s.halIn.initDraw with
      | ok => simp [effectOf, initEffect_of_ok hdraw, hr]
      | fail => simp [effectOf, initEffect_of_fail hdraw]
    · simp [effectOf, advanceEffect_eq, hr]
    · simp [effectOf]

/-- Settles O35: a running block faults in the fetch or in a check, and either way the step only takes the fault. -/
theorem faultChangesOnlyTheStatus : Obligations.FaultChangesOnlyTheStatus := by
  intro s t f hr hstep hfault
  suffices htaken : ∃ g, t = s.takeFault g by
    obtain ⟨g, rfl⟩ := htaken
    exact congrArg s.takeFault (Status.faulted.inj hfault)
  obtain ⟨-, ⟨hstopped, -⟩ | ⟨-, i, -, hexec⟩ | ⟨-, g, -, ht⟩⟩ := step_cases hstep
  · exact absurd hr hstopped
  · rcases exec_cases hexec with ⟨-, rfl⟩ | ⟨c, -, -, ht⟩
    · exact absurd hfault (effectOf_not_faulted i hr f)
    · exact ⟨c.fault, ht⟩
  · exact ⟨g, ht⟩

/-! ### Runs -/

/-- No step writes the configuration or the micro-ROM, so a state that may run them still may after it. -/
theorem step_configured {s t : State} (hv : s.configured = true) (hstep : step s = .next t) : t.configured = true := by
  obtain ⟨-, -, hcfg, hrom, -⟩ := step_growsTo hstep
  rw [State.configured, hcfg, hrom]
  exact hv

/-- From a configured state no step of a run is refused (R43). -/
theorem runSteps_isNext (n : Nat) {s : State} (hv : s.configured = true) : ∃ t, runSteps n s = .next t := by
  induction n generalizing s with
  | zero => exact ⟨s, rfl⟩
  | succ n ih =>
    obtain ⟨u, hu⟩ := step_isNext hv
    rw [runSteps_succ_of_next n hu]
    exact ih (step_configured hv hu)

/-- No phase of a canonical run is a faulted one. -/
theorem CanonicalInv.not_faulted {s : State} (h : CanonicalInv s) (f : ModelFault) : s.status ≠ .faulted f := by
  obtain ⟨hs, -⟩ | ⟨hs, -⟩ | ⟨hs, -⟩ := h.phase <;> simp [hs]

/-- Settles O47: the invariant of the canonical micro-ROM holds along the run, and no faulted state meets it. -/
theorem canonicalRunNeverFaults : Obligations.CanonicalRunNeverFaults := by
  intro c h m n hv hl
  obtain ⟨t, hrun⟩ := runSteps_isNext n (s := startOf c h m) (State.configured_of_loop hv hl)
  have hinv : CanonicalInv t := runSteps_preserves stepKeepsCanonicalInv (startOf_canonicalInv h m hv hl) hrun
  exact ⟨t, hrun, hinv.not_faulted⟩

end Sys2Proof.Machine
